-- ==== Sys2Proof/Word.lean ====
section
/-! DEFINITION. The word types of GPIO_BANK: bit vectors of the widths of 00_scope.md R6. -/

namespace Sys2Proof

/-- A register value, 32 bits (00_scope.md R6 `REG_WIDTH`). -/
abbrev Word := BitVec 32

/-- A byte offset in the 512-byte register window (20_memory.md R51, `OFF_WIDTH` = 9). -/
abbrev Offset := BitVec 9

/-- A byte-enable mask, bit i for byte lane i (20_memory.md R55, `BE_WIDTH` = 4). -/
abbrev ByteEnable := BitVec 4

/-- An access descriptor of format `ACC46` (30_encoding.md R71). -/
abbrev AccessWord := BitVec 46

end Sys2Proof
end

