-- ==== Sys2Proof/Syntax.lean ====
section
/-! DEFINITION. The accesses of GPIO_BANK (its "instructions", 00_scope.md R2), one constructor per row of
spec/opcode_table.json, with the registers, channels, descriptors and refusal reasons they are written with. -/

namespace Sys2Proof

/-- The seven registers (10_state.md R21). -/
inductive Reg where
  | gpioData
  | gpioTri
  | gpio2Data
  | gpio2Tri
  | gier
  | ipisr
  | ipier
  deriving DecidableEq, Repr

/-- The two GPIO channels, indexed 1 and 2 (00_scope.md R6 `NUM_CHANNELS`). -/
inductive Channel where
  | ch1
  | ch2
  deriving DecidableEq, Repr

/-- One register access (30_encoding.md R78). `be` is the byte-enable mask, `wdata` the write value; a read has no
`wdata`, since a read descriptor's `WDATA` is ignored (R71, R76; log entry 12). -/
inductive Instr where
  /-- `RD_GPIO_DATA`, key 0x000 (R131). -/
  | rdGpioData (be : ByteEnable)
  /-- `WR_GPIO_DATA`, key 0x200 (R133). -/
  | wrGpioData (be : ByteEnable) (wdata : Word)
  /-- `RD_GPIO_TRI`, key 0x004 (R136). -/
  | rdGpioTri (be : ByteEnable)
  /-- `WR_GPIO_TRI`, key 0x204 (R137). -/
  | wrGpioTri (be : ByteEnable) (wdata : Word)
  /-- `RD_GPIO2_DATA`, key 0x008 (R139). -/
  | rdGpio2Data (be : ByteEnable)
  /-- `WR_GPIO2_DATA`, key 0x208 (R141). -/
  | wrGpio2Data (be : ByteEnable) (wdata : Word)
  /-- `RD_GPIO2_TRI`, key 0x00C (R143). -/
  | rdGpio2Tri (be : ByteEnable)
  /-- `WR_GPIO2_TRI`, key 0x20C (R144). -/
  | wrGpio2Tri (be : ByteEnable) (wdata : Word)
  /-- `RD_GIER`, key 0x11C (R101). -/
  | rdGier (be : ByteEnable)
  /-- `WR_GIER`, key 0x31C (R102). -/
  | wrGier (be : ByteEnable) (wdata : Word)
  /-- `RD_IPISR`, key 0x120 (R110). -/
  | rdIpisr (be : ByteEnable)
  /-- `WR_IPISR`, key 0x320 (R111). -/
  | wrIpisr (be : ByteEnable) (wdata : Word)
  /-- `RD_IPIER`, key 0x128 (R105). -/
  | rdIpier (be : ByteEnable)
  /-- `WR_IPIER`, key 0x328 (R106). -/
  | wrIpier (be : ByteEnable) (wdata : Word)
  deriving DecidableEq, Repr

/-- The fields of an access descriptor (30_encoding.md R71), before its key is looked up. -/
structure Descriptor where
  /-- `W`: a write. -/
  write : Bool
  /-- `OFF`: the register's byte offset in the window. -/
  off : Offset
  /-- `BE`: the byte-enable mask. -/
  be : ByteEnable
  /-- `WDATA`: the write value; a read ignores it. -/
  wdata : Word
  deriving DecidableEq, Repr

/-- The two refusal reasons of 30_encoding.md R80. -/
inductive RefuseReason where
  /-- The offset is not word-aligned (R57, R77). -/
  | misaligned
  /-- The offset is word-aligned and not in the map (R52, R77). -/
  | unmapped
  deriving DecidableEq, Repr

end Sys2Proof
end

