-- ==== Sys2Proof/WellFormed.lean ====
section
/-! DEFINITION. What a well-formed access is. The operand widths are carried by the types and every byte-enable mask
and every write value is legal (20_memory.md R58, 30_encoding.md R79), so the only checks are on the offset of a
descriptor: word-aligned (R57) and in the register map (R50). An `Instr` names its register, so none is ill-formed. -/

namespace Sys2Proof

/-- `OFF[1:0] = 0b00` (20_memory.md R57). -/
def Descriptor.isAligned (d : Descriptor) : Bool :=
  !d.off.getLsbD 0 && !d.off.getLsbD 1

/-- The offset is one of the seven of the register map (20_memory.md R50). -/
def Descriptor.isMapped (d : Descriptor) : Bool :=
  [0x000, 0x004, 0x008, 0x00C, 0x11C, 0x120, 0x128].contains d.off.toNat

/-- A descriptor that selects an access rule (30_encoding.md R79). -/
def Descriptor.wellFormed (d : Descriptor) : Bool :=
  d.isAligned && d.isMapped

/-- Every access is well-formed: the types hold its operands to their widths and no operand value is reserved
(30_encoding.md R79). -/
def Instr.wellFormed (i : Instr) : Bool :=
  match i with
  | .rdGpioData _ | .wrGpioData _ _ | .rdGpioTri _ | .wrGpioTri _ _ => true
  | .rdGpio2Data _ | .wrGpio2Data _ _ | .rdGpio2Tri _ | .wrGpio2Tri _ _ => true
  | .rdGier _ | .wrGier _ _ | .rdIpisr _ | .wrIpisr _ _ | .rdIpier _ | .wrIpier _ _ => true

end Sys2Proof
end

