-- ==== Sys2Proof/Decode.lean ====
section
/-! DEFINITION. Decoding an access descriptor (30_encoding.md R71, R77, R78), total on every 46-bit word and refusing by
name, and the encoder, written from the same tables. -/

namespace Sys2Proof

/-- The fields of a 46-bit descriptor: `W` = [45], `OFF` = [44:36], `BE` = [35:32], `WDATA` = [31:0] (R71). -/
def Descriptor.ofWord (w : AccessWord) : Descriptor where
  write := w.getLsbD 45
  off := w.extractLsb' 36 9
  be := w.extractLsb' 32 4
  wdata := w.extractLsb' 0 32

/-- The 46-bit word `{W, OFF, BE, WDATA}` (R71). -/
def Descriptor.toWord (d : Descriptor) : AccessWord :=
  BitVec.ofBool d.write ++ d.off ++ d.be ++ d.wdata

/-- The register at an offset, where the map has one (20_memory.md R50). -/
def regAt (off : Offset) : Option Reg :=
  match off.toNat with
  | 0x000 => some .gpioData
  | 0x004 => some .gpioTri
  | 0x008 => some .gpio2Data
  | 0x00C => some .gpio2Tri
  | 0x11C => some .gier
  | 0x120 => some .ipisr
  | 0x128 => some .ipier
  | _ => none

/-- A register's offset (20_memory.md R50). -/
def Reg.offset : Reg → Offset
  | .gpioData => 0x000
  | .gpioTri => 0x004
  | .gpio2Data => 0x008
  | .gpio2Tri => 0x00C
  | .gier => 0x11C
  | .ipisr => 0x120
  | .ipier => 0x128

/-- The read access of a register (R78). -/
def readOf (r : Reg) (be : ByteEnable) : Instr :=
  match r with
  | .gpioData => .rdGpioData be
  | .gpioTri => .rdGpioTri be
  | .gpio2Data => .rdGpio2Data be
  | .gpio2Tri => .rdGpio2Tri be
  | .gier => .rdGier be
  | .ipisr => .rdIpisr be
  | .ipier => .rdIpier be

/-- The write access of a register (R78). -/
def writeOf (r : Reg) (be : ByteEnable) (wdata : Word) : Instr :=
  match r with
  | .gpioData => .wrGpioData be wdata
  | .gpioTri => .wrGpioTri be wdata
  | .gpio2Data => .wrGpio2Data be wdata
  | .gpio2Tri => .wrGpio2Tri be wdata
  | .gier => .wrGier be wdata
  | .ipisr => .wrIpisr be wdata
  | .ipier => .wrIpier be wdata

/-- Decoding of a descriptor's fields, in R77's order: alignment first, then the map. -/
def decodeFields (d : Descriptor) : Except RefuseReason Instr :=
  if d.off.extractLsb' 0 2 = 0b00#2 then
    match regAt d.off with
    | some r => .ok (if d.write then writeOf r d.be d.wdata else readOf r d.be)
    | none => .error .unmapped
  else
    .error .misaligned

/-- Decoding of a 46-bit descriptor (R77). -/
def decode (w : AccessWord) : Except RefuseReason Instr :=
  decodeFields (Descriptor.ofWord w)

/-- The descriptor of a host read: `WDATA` is written as 0, since a read ignores it (R76, log entry 12). -/
def memRead (off : Offset) (be : ByteEnable) : Descriptor :=
  { write := false, off := off, be := be, wdata := 0 }

/-- The descriptor of a host write (R76). -/
def memWrite (off : Offset) (be : ByteEnable) (v : Word) : Descriptor :=
  { write := true, off := off, be := be, wdata := v }

/-- The descriptor of an access (R78). -/
def Instr.descriptor : Instr → Descriptor
  | .rdGpioData be => memRead (Reg.offset .gpioData) be
  | .wrGpioData be v => memWrite (Reg.offset .gpioData) be v
  | .rdGpioTri be => memRead (Reg.offset .gpioTri) be
  | .wrGpioTri be v => memWrite (Reg.offset .gpioTri) be v
  | .rdGpio2Data be => memRead (Reg.offset .gpio2Data) be
  | .wrGpio2Data be v => memWrite (Reg.offset .gpio2Data) be v
  | .rdGpio2Tri be => memRead (Reg.offset .gpio2Tri) be
  | .wrGpio2Tri be v => memWrite (Reg.offset .gpio2Tri) be v
  | .rdGier be => memRead (Reg.offset .gier) be
  | .wrGier be v => memWrite (Reg.offset .gier) be v
  | .rdIpisr be => memRead (Reg.offset .ipisr) be
  | .wrIpisr be v => memWrite (Reg.offset .ipisr) be v
  | .rdIpier be => memRead (Reg.offset .ipier) be
  | .wrIpier be v => memWrite (Reg.offset .ipier) be v

/-- The 46-bit word of an access. -/
def encode (i : Instr) : AccessWord :=
  i.descriptor.toWord

/-- The descriptor that the opcode table's numbering of bits gives, where there is one: `nbits` bits of `w`, every bit
above them 0; a word with a bit set above bit 45 is no descriptor (log entry 13). -/
def tableWord (nbits w : Nat) : Option AccessWord :=
  let v := w % 2 ^ nbits
  if v < 2 ^ 46 then some (BitVec.ofNat 46 v) else none

/-- The access the decoder reads from a word of spec/opcode_table.json, bit 0 the least significant bit. -/
def decodeTableWord (nbits w : Nat) : Option Instr :=
  match tableWord nbits w with
  | some v => (decode v).toOption
  | none => none

end Sys2Proof
end

