-- ==== Sys2Proof/Config.lean ====
section
/-! DEFINITION. The parameters of 00_scope.md R6 that the spec marks OPEN: each is an argument of the model with the
default the spec recommends. `Params` is plain data; a state carries it and no step changes it (log entry 1). -/

namespace Sys2Proof

/-- `UNMAPPED_POLICY` (00_scope.md R6, D3): an access to a word-aligned offset not in the map. -/
inductive UnmappedPolicy where
  /-- The access is refused, reason `UNMAPPED`. -/
  | refuse
  /-- A read returns 0x00000000 and a write changes nothing. -/
  | razWi
  deriving DecidableEq, Repr

/-- `BUS_BYTE_ORDER` (20_memory.md R56, D6): which byte lane the byte at `base + off + i` is. -/
inductive ByteOrder where
  /-- Lane i. -/
  | little
  /-- Lane 3 - i. -/
  | big
  deriving DecidableEq, Repr

/-- `CTRL_WRITE_MODE` (40_access_common.md R93, D8): how the byte-enable mask reaches GIER, IPIER and IPISR writes. -/
inductive CtrlWriteMode where
  /-- A field changes only when the lane holding it is selected. -/
  | laneGated
  /-- The handler is given the stored value merged with the written one, whatever the mask. -/
  | merged
  deriving DecidableEq, Repr

/-- `DATA_WRITE_INPUT_BITS` (42_channel_registers.md R133, R134, D9, 90_conflicts.md C1): what a data-register write
does to input bits of selected lanes. -/
inductive DataWriteInputBits where
  /-- They keep their value. -/
  | preserve
  /-- They become 0. -/
  | clear
  deriving DecidableEq, Repr

/-- `EXT_PIN_UPDATE` (42_channel_registers.md R146, D14): whether the pin environment may change data-register bits. -/
inductive ExtPinUpdate where
  /-- The input bits may change between accesses. -/
  | inputBits
  /-- There is no pin-update step. -/
  | absent
  deriving DecidableEq, Repr

/-- The OPEN parameters of 00_scope.md R6. -/
structure Params where
  unmappedPolicy : UnmappedPolicy
  busByteOrder : ByteOrder
  ctrlWriteMode : CtrlWriteMode
  dataWriteInputBits : DataWriteInputBits
  extPinUpdate : ExtPinUpdate
  /-- `RESET_DATA1` -/
  resetData1 : Word
  /-- `RESET_TRI1` -/
  resetTri1 : Word
  /-- `RESET_DATA2` -/
  resetData2 : Word
  /-- `RESET_TRI2` -/
  resetTri2 : Word
  deriving DecidableEq, Repr

/-- The defaults of 00_scope.md R6 (log entry 2). -/
def Params.standard : Params where
  unmappedPolicy := .refuse
  busByteOrder := .little
  ctrlWriteMode := .laneGated
  dataWriteInputBits := .preserve
  extPinUpdate := .inputBits
  resetData1 := 0x00000000
  resetTri1 := 0x00000000
  resetData2 := 0x00000000
  resetTri2 := 0x00000000

end Sys2Proof
end

