-- ==== Sys2Proof/Machine/State.lean ====
section
/-! DEFINITION. The state of GPIO_BANK (10_state.md R44), its outcomes, and the state after reset (70_reset_and_hazards.md
R190). -/

namespace Sys2Proof.Machine

open Sys2Proof

/-- What one channel holds (10_state.md R22 to R25, R29, R31, R33; 42_channel_registers.md R130). -/
structure ChannelState where
  /-- `DATA[c]`, the data register. -/
  data : Word
  /-- `TRI[c]`, the tri-state register: bit 1 = input, bit 0 = output. -/
  tri : Word
  /-- `IER_CH[c]`, the channel's bit of IPIER. -/
  ier : Bool
  /-- `ISR_CH[c]`, the channel's status bit of IPISR: CLEAR (false) or SET (true). -/
  isr : Bool
  /-- `POSTED[c]`, the interrupt-posted flag. -/
  posted : Bool
  deriving DecidableEq, Repr

/-- The two interrupt targets (10_state.md R35). -/
inductive Target where
  /-- Channel 1's. -/
  | intrTarget
  /-- Channel 2's. -/
  | intrTarget2
  deriving DecidableEq, Repr

/-- A call on an interrupt target (10_state.md R36). -/
inductive Call where
  | raise
  | lower
  deriving DecidableEq, Repr

/-- One event of the output log (10_state.md R36). -/
structure Event where
  target : Target
  call : Call
  deriving DecidableEq, Repr

/-- What the latest access handed back to the host (30_encoding.md R72, R80): the model's output port (log entry 6). -/
inductive Result where
  /-- No access has been made yet. -/
  | noAccess
  /-- A write: it returns nothing. -/
  | written
  /-- A read: `RDATA`. -/
  | rdata (v : Word)
  /-- The access was refused. -/
  | refused (r : RefuseReason)
  deriving DecidableEq, Repr

/-- The part of a register a bus access covers (20_memory.md R56). -/
inductive BusSpan where
  /-- The byte at `base + off + i`. -/
  | byte (i : Fin 4)
  /-- The two bytes at `base + off + 2j`. -/
  | half (j : Fin 2)
  /-- All four bytes. -/
  | word
  deriving DecidableEq, Repr

/-- A bus access before the dispatch has turned its bytes into a lane mask (20_memory.md R56): the write value is
already the whole 32-bit value the dispatch hands over. -/
structure BusAccess where
  write : Bool
  off : Offset
  span : BusSpan
  wdata : Word
  deriving DecidableEq, Repr

/-- What an agent outside the block does next (00_scope.md R7). -/
inductive Input where
  /-- The host's access, as the descriptor the dispatch hands over (30_encoding.md R71). -/
  | access (w : AccessWord)
  /-- The host's access, as bytes of a register on the bus (20_memory.md R56). -/
  | bus (b : BusAccess)
  /-- `PIN c, p`: the pin environment updates channel c; p is a free draw (42_channel_registers.md R146, log entry 7). -/
  | pin (c : Channel) (p : Word)
  deriving DecidableEq, Repr

/-- The machine's state: the record of 10_state.md R44, with three fields of the model's own (`params`, `result`,
`input`; log entries 1, 3 and 6). -/
structure State where
  /-- The OPEN parameters of 00_scope.md R6; no step changes them. -/
  params : Params
  /-- Channel 1. -/
  ch1 : ChannelState
  /-- Channel 2. -/
  ch2 : ChannelState
  /-- `GIE`, bit 31 of GIER (10_state.md R27). -/
  gie : Bool
  /-- The output event log, oldest first (10_state.md R36). -/
  events : List Event
  /-- The access index (10_state.md R41). -/
  pc : Nat
  /-- Set by a refusal, never cleared (30_encoding.md R80). -/
  refused : Bool
  /-- What the latest access handed back. -/
  result : Result
  /-- What the host and the pin environment do next, in order. -/
  input : List Input
  deriving DecidableEq, Repr

/-- The block raises no exception and has no fatal condition (60_exceptions.md R160), so nothing raises a fault and
there is none: safe, since the type promises nothing but that `step` never stops so (log entry 8). -/
inductive Fault where
  deriving DecidableEq, Repr

/-- Why a step can be given no meaning. The refusals of 30_encoding.md R80 are NOT here: R80 gives them a next state,
with the `refused` mark set (log entry 5). -/
inductive Refusal where
  /-- An access the model has no meaning for. Raised by `exec`'s arms alone; no arm raises it. Safe: the run stops. -/
  | notModelled (mnemonic : String)
  /-- A pin update under `EXT_PIN_UPDATE = NONE`, where there is no such step (42_channel_registers.md R146). Raised by
  `pinStep`. Safe: the run stops, and nothing can be proved of it (log entry 10). -/
  | noPinUpdateStep
  deriving DecidableEq, Repr

/-- A channel after reset (70_reset_and_hazards.md R190). -/
def ChannelState.resetWith (data tri : Word) : ChannelState where
  data := data
  tri := tri
  ier := false
  isr := false
  posted := false

/-- The reset state under given parameters (70_reset_and_hazards.md R190). -/
def State.resetWith (p : Params) : State where
  params := p
  ch1 := ChannelState.resetWith p.resetData1 p.resetTri1
  ch2 := ChannelState.resetWith p.resetData2 p.resetTri2
  gie := false
  events := []
  pc := 0
  refused := false
  result := .noAccess
  input := []

/-- The machine right after reset, the parameters at the spec's defaults (R190, log entry 2). Nothing is in the input
list: the host has issued no access yet (log entry 3). -/
def State.reset : State :=
  State.resetWith Params.standard

end Sys2Proof.Machine
end

