-- ==== Sys2Proof/Machine/Operands.lean ====
section
/-! DEFINITION. Operand assembly: byte-enable masks, masked writes, the selector of an interrupt-register write, and the
lanes of a sub-word bus access (20_memory.md R55, R56; 30_encoding.md R74, R75; 40_access_common.md R90 to R94;
42_channel_registers.md R133). -/

namespace Sys2Proof.Machine

open Sys2Proof

/-- The 32-bit mask of a byte-enable mask: lane i all ones when `be[i] = 1` (30_encoding.md R74). -/
def bemask (be : ByteEnable) : Word :=
  (if be.getLsbD 0 then 0x000000FF else 0) ||| (if be.getLsbD 1 then 0x0000FF00 else 0) |||
  (if be.getLsbD 2 then 0x00FF0000 else 0) ||| (if be.getLsbD 3 then 0xFF000000 else 0)

/-- The masked write `(old & ~m) | (new & m)` (40_access_common.md R90). -/
def merge (m old new : Word) : Word :=
  (old &&& ~~~m) ||| (new &&& m)

/-- The default write of a register (40_access_common.md R90). -/
def defaultWrite (be : ByteEnable) (old new : Word) : Word :=
  merge (bemask be) old new

/-- The bits a data-register write may store: selected lanes, output pins only (42_channel_registers.md R133, `E`). -/
def outputMask (be : ByteEnable) (tri : Word) : Word :=
  bemask be &&& ~~~tri

/-- What a data-register write stores (42_channel_registers.md R133, R134). -/
def dataWrite (mode : DataWriteInputBits) (be : ByteEnable) (tri old new : Word) : Word :=
  match mode with
  | .preserve => merge (outputMask be tri) old new
  | .clear => (old &&& ~~~bemask be) ||| (new &&& outputMask be tri)

/-- What a pin update stores: only input bits change (42_channel_registers.md R146). -/
def pinWrite (tri old p : Word) : Word :=
  merge tri old p

/-- The value an interrupt-register write works on, `none` where the field is not written (40_access_common.md R94):
`stored` is the register's value and `lane` the lane that holds the field. -/
def laneValue (mode : CtrlWriteMode) (stored : Word) (lane : Nat) (be : ByteEnable) (wdata : Word) : Option Word :=
  match mode with
  | .laneGated => if be.getLsbD lane then some wdata else none
  | .merged => some (merge (bemask be) stored wdata)

/-- A register value of two fields at bits 0 and 1, every other bit 0 (10_state.md R29, R31). -/
def pairValue (b0 b1 : Bool) : Word :=
  (BitVec.ofBool b1 ++ BitVec.ofBool b0).setWidth 32

/-- A register value of one field at bit 31, every other bit 0 (10_state.md R27). -/
def topBitValue (b : Bool) : Word :=
  (BitVec.ofBool b).setWidth 32 <<< 31

/-- The byte lane of the byte at `base + off + i` (20_memory.md R56). -/
def busLane (order : ByteOrder) (i : Fin 4) : Fin 4 :=
  match order with
  | .little => i
  | .big => i.rev

/-- The mask that selects one lane (20_memory.md R55). -/
def laneBit (i : Fin 4) : ByteEnable :=
  1#4 <<< i.val

/-- The byte-enable mask of a bus access (20_memory.md R56); a two-byte access covers the bytes `2j` and `2j + 1`
(DEDUCED for `BIG`, log entry 4). -/
def spanMask (order : ByteOrder) (span : BusSpan) : ByteEnable :=
  match span with
  | .byte i => laneBit (busLane order i)
  | .half j => laneBit (busLane order ⟨2 * j.val, by omega⟩) ||| laneBit (busLane order ⟨2 * j.val + 1, by omega⟩)
  | .word => 0xF#4

/-- The descriptor the dispatch hands over for a bus access (20_memory.md R56, 30_encoding.md R71). -/
def BusAccess.descriptor (order : ByteOrder) (b : BusAccess) : Descriptor where
  write := b.write
  off := b.off
  be := spanMask order b.span
  wdata := b.wdata

end Sys2Proof.Machine
end

