-- ==== Sys2Proof/Machine/Flags.lean ====
section
/-! DEFINITION. The only flags the block has: a channel's status bit and posted flag, how an access changes them and
which calls that makes (10_state.md R33, R42; 60_exceptions.md R165), and the line level and the channel's phase read
from them (10_state.md R37; 60_exceptions.md R166). -/

namespace Sys2Proof.Machine

open Sys2Proof

/-- The target of a channel (10_state.md R35). -/
def targetOf (c : Channel) : Target :=
  match c with
  | .ch1 => .intrTarget
  | .ch2 => .intrTarget2

/-- A 1 written to the channel's status bit: SET becomes CLEAR and the posted flag stays; CLEAR becomes SET and the
posted flag is set (41_interrupt_registers.md R111). -/
def ChannelState.toggled (x : ChannelState) : ChannelState :=
  if x.isr then { x with isr := false } else { x with isr := true, posted := true }

/-- The calls a 1 written to the channel's status bit makes: one `raise` from CLEAR, none from SET (R111). -/
def ChannelState.toggleCalls (x : ChannelState) : List Call :=
  if x.isr then [] else [.raise]

/-- A read of the channel's data register: a SET status bit and the posted flag are cleared
(42_channel_registers.md R131). -/
def ChannelState.acknowledged (x : ChannelState) : ChannelState :=
  if x.isr then { x with isr := false, posted := false } else x

/-- The calls a read of the channel's data register makes: one `lower` from SET, none from CLEAR (R131). -/
def ChannelState.acknowledgeCalls (x : ChannelState) : List Call :=
  if x.isr then [.lower] else []

/-- `LEVEL(t)`: 1 when the last event for t is a raise, 0 when it is a lower or there is none (10_state.md R37). -/
def level (log : List Event) (t : Target) : Bool :=
  match (log.filter (fun e => e.target = t)).getLast? with
  | some e => e.call = .raise
  | none => false

/-- The three states of a channel reachable from reset (60_exceptions.md R166). -/
inductive Phase where
  /-- Status, posted flag and line all 0. -/
  | idle
  /-- Status, posted flag and line all 1. -/
  | pending
  /-- Status 0, posted flag and line 1. -/
  | stale
  deriving DecidableEq, Repr

/-- The phase of a channel's status bit, posted flag and line level, `none` outside the three of R166. -/
def phaseOf (isr posted line : Bool) : Option Phase :=
  match isr, posted, line with
  | false, false, false => some .idle
  | true, true, true => some .pending
  | false, true, true => some .stale
  | _, _, _ => none

end Sys2Proof.Machine
end

