-- ==== Sys2Proof/Machine/Ops.lean ====
section
/-! DEFINITION. The named operations over the state: one home for every register read and write, signal calls, the end
of an access, a refusal, and the pin update. The block takes no exception and returns from none (60_exceptions.md R160,
R170); a refusal (30_encoding.md R80) is the one shared operation in that place. -/

namespace Sys2Proof.Machine

open Sys2Proof

/-- Channel c's state (42_channel_registers.md R130). -/
def State.chan (s : State) (c : Channel) : ChannelState :=
  match c with
  | .ch1 => s.ch1
  | .ch2 => s.ch2

/-- `s` with channel c's state replaced. -/
def State.setChan (s : State) (c : Channel) (x : ChannelState) : State :=
  match c with
  | .ch1 => { s with ch1 := x }
  | .ch2 => { s with ch2 := x }

/-- `GIE <- b` (41_interrupt_registers.md R102). -/
def State.setGie (s : State) (b : Bool) : State :=
  { s with gie := b }

/-- `IER_CH[1] <- b1; IER_CH[2] <- b2` (41_interrupt_registers.md R106). -/
def State.setIer (s : State) (b1 b2 : Bool) : State :=
  { s with ch1 := { s.ch1 with ier := b1 }, ch2 := { s.ch2 with ier := b2 } }

/-- `DATA[c] <- v`. -/
def State.setData (s : State) (c : Channel) (v : Word) : State :=
  s.setChan c { s.chan c with data := v }

/-- `TRI[c] <- v`. -/
def State.setTri (s : State) (c : Channel) (v : Word) : State :=
  s.setChan c { s.chan c with tri := v }

/-- `signal(TARGET[c], call)` for each call in order: the events are appended to the log (00_scope.md R10). -/
def State.signal (s : State) (c : Channel) (calls : List Call) : State :=
  { s with events := s.events ++ calls.map (fun k => { target := targetOf c, call := k }) }

/-- The line level of channel c's target (10_state.md R37). -/
def State.line (s : State) (c : Channel) : Bool :=
  level s.events (targetOf c)

/-- The phase of channel c (60_exceptions.md R166). -/
def State.phase (s : State) (c : Channel) : Option Phase :=
  phaseOf (s.chan c).isr (s.chan c).posted (s.line c)

/-- `reg(r)`: the 32-bit value register r reads as, built from its fields (10_state.md R21, R27, R29, R31). -/
def State.reg (s : State) (r : Reg) : Word :=
  match r with
  | .gpioData => s.ch1.data
  | .gpioTri => s.ch1.tri
  | .gpio2Data => s.ch2.data
  | .gpio2Tri => s.ch2.tri
  | .gier => topBitValue s.gie
  | .ipisr => pairValue s.ch1.isr s.ch2.isr
  | .ipier => pairValue s.ch1.ier s.ch2.ier

/-- The end of an access that is not refused: what it hands back, and `pc <- pc + 1` (30_encoding.md R72, R77). -/
def State.complete (s : State) (r : Result) : State :=
  { s with result := r, pc := s.pc + 1 }

/-- `refuse(reason)`: no register, flag or event changes, `pc` stays, and the `refused` mark is set
(30_encoding.md R80, log entry 5). -/
def State.refuse (s : State) (r : RefuseReason) : State :=
  { s with refused := true, result := .refused r }

/-- The end of a read of register r: `RDATA <- reg(r) & bemask(BE)` (40_access_common.md R91). -/
def State.finishRead (s : State) (r : Reg) (be : ByteEnable) : State :=
  s.complete (.rdata (s.reg r &&& bemask be))

/-- `lane_value(r, lane, BE, WDATA)` (40_access_common.md R94). -/
def State.laneValueOf (s : State) (r : Reg) (lane : Nat) (be : ByteEnable) (wdata : Word) : Option Word :=
  laneValue s.params.ctrlWriteMode (s.reg r) lane be wdata

/-- A 1 written to channel c's status bit, with its calls (41_interrupt_registers.md R111). -/
def State.toggleStatus (s : State) (c : Channel) : State :=
  (s.signal c (s.chan c).toggleCalls).setChan c (s.chan c).toggled

/-- A bit written to channel c's status bit: 0 is a no-op (41_interrupt_registers.md R107). -/
def State.toggleIf (s : State) (c : Channel) (selected : Bool) : State :=
  if selected then s.toggleStatus c else s

/-- The side effect of a read of channel c's data register (42_channel_registers.md R131, R132). -/
def State.acknowledge (s : State) (c : Channel) : State :=
  (s.signal c (s.chan c).acknowledgeCalls).setChan c (s.chan c).acknowledged

/-- A write of channel c's data register (42_channel_registers.md R133, R134, R141). -/
def State.writeData (s : State) (c : Channel) (be : ByteEnable) (wdata : Word) : State :=
  s.setData c (dataWrite s.params.dataWriteInputBits be (s.chan c).tri (s.chan c).data wdata)

/-- A write of channel c's tri-state register (42_channel_registers.md R137, R144). -/
def State.writeTri (s : State) (c : Channel) (be : ByteEnable) (wdata : Word) : State :=
  s.setTri c (defaultWrite be (s.chan c).tri wdata)

/-- A pin update of channel c by the draw p (42_channel_registers.md R146, R147). -/
def State.pinUpdate (s : State) (c : Channel) (p : Word) : State :=
  s.setData c (pinWrite (s.chan c).tri (s.chan c).data p)

/-- The next thing an agent does, and the state with it taken off the input list (20_memory.md R62, R66). -/
def State.takeInput (s : State) : Option (Input × State) :=
  match s.input with
  | [] => none
  | x :: rest => some (x, { s with input := rest })

end Sys2Proof.Machine
end

