-- ==== Sys2Proof/Machine/ChannelRegs.lean ====
section
/-! DEFINITION. The meanings of the eight accesses of the channel registers (42_channel_registers.md). -/

namespace Sys2Proof.Machine

open Sys2Proof

/-- `RD_GPIO_DATA` (R131, R132): the acknowledge happens first, whatever the mask. -/
def execRdGpioData (be : ByteEnable) (s : State) : Host.Outcome State Fault Refusal :=
  .next ((s.acknowledge .ch1).finishRead .gpioData be)

/-- `WR_GPIO_DATA` (R133, R134). -/
def execWrGpioData (be : ByteEnable) (wdata : Word) (s : State) : Host.Outcome State Fault Refusal :=
  .next ((s.writeData .ch1 be wdata).complete .written)

/-- `RD_GPIO_TRI` (R136). -/
def execRdGpioTri (be : ByteEnable) (s : State) : Host.Outcome State Fault Refusal :=
  .next (s.finishRead .gpioTri be)

/-- `WR_GPIO_TRI` (R137, R138). -/
def execWrGpioTri (be : ByteEnable) (wdata : Word) (s : State) : Host.Outcome State Fault Refusal :=
  .next ((s.writeTri .ch1 be wdata).complete .written)

/-- `RD_GPIO2_DATA` (R139, R140). -/
def execRdGpio2Data (be : ByteEnable) (s : State) : Host.Outcome State Fault Refusal :=
  .next ((s.acknowledge .ch2).finishRead .gpio2Data be)

/-- `WR_GPIO2_DATA` (R141, R142). -/
def execWrGpio2Data (be : ByteEnable) (wdata : Word) (s : State) : Host.Outcome State Fault Refusal :=
  .next ((s.writeData .ch2 be wdata).complete .written)

/-- `RD_GPIO2_TRI` (R143). -/
def execRdGpio2Tri (be : ByteEnable) (s : State) : Host.Outcome State Fault Refusal :=
  .next (s.finishRead .gpio2Tri be)

/-- `WR_GPIO2_TRI` (R144). -/
def execWrGpio2Tri (be : ByteEnable) (wdata : Word) (s : State) : Host.Outcome State Fault Refusal :=
  .next ((s.writeTri .ch2 be wdata).complete .written)

end Sys2Proof.Machine
end

