-- ==== Sys2Proof/Machine/InterruptRegs.lean ====
section
/-! DEFINITION. The meanings of the six accesses of the interrupt registers (41_interrupt_registers.md). -/

namespace Sys2Proof.Machine

open Sys2Proof

/-- `RD_GIER` (R101). -/
def execRdGier (be : ByteEnable) (s : State) : Host.Outcome State Fault Refusal :=
  .next (s.finishRead .gier be)

/-- `WR_GIER` (R102): `GIE` is in lane 3. -/
def execWrGier (be : ByteEnable) (wdata : Word) (s : State) : Host.Outcome State Fault Refusal :=
  match s.laneValueOf .gier 3 be wdata with
  | none => .next (s.complete .written)
  | some v => .next ((s.setGie (v.getLsbD 31)).complete .written)

/-- `RD_IPISR` (R110): no side effect. -/
def execRdIpisr (be : ByteEnable) (s : State) : Host.Outcome State Fault Refusal :=
  .next (s.finishRead .ipisr be)

/-- `WR_IPISR` (R107 to R109, R111): channel 1 toggles before channel 2 (log entry 11). -/
def execWrIpisr (be : ByteEnable) (wdata : Word) (s : State) : Host.Outcome State Fault Refusal :=
  match s.laneValueOf .ipisr 0 be wdata with
  | none => .next (s.complete .written)
  | some v => .next (((s.toggleIf .ch1 (v.getLsbD 0)).toggleIf .ch2 (v.getLsbD 1)).complete .written)

/-- `RD_IPIER` (R105). -/
def execRdIpier (be : ByteEnable) (s : State) : Host.Outcome State Fault Refusal :=
  .next (s.finishRead .ipier be)

/-- `WR_IPIER` (R103, R106): direct assignment of both bits. -/
def execWrIpier (be : ByteEnable) (wdata : Word) (s : State) : Host.Outcome State Fault Refusal :=
  match s.laneValueOf .ipier 0 be wdata with
  | none => .next (s.complete .written)
  | some v => .next ((s.setIer (v.getLsbD 0) (v.getLsbD 1)).complete .written)

end Sys2Proof.Machine
end

