-- ==== Sys2Proof/Machine/Dispatch.lean ====
section
/-! DEFINITION. One arm per access of spec/opcode_table.json (30_encoding.md R78). -/

namespace Sys2Proof.Machine

open Sys2Proof

def exec (i : Instr) (s : State) : Host.Outcome State Fault Refusal :=
  match i with
  | .rdGpioData be => Sys2Proof.Machine.execRdGpioData be s
  | .wrGpioData be wdata => Sys2Proof.Machine.execWrGpioData be wdata s
  | .rdGpioTri be => Sys2Proof.Machine.execRdGpioTri be s
  | .wrGpioTri be wdata => Sys2Proof.Machine.execWrGpioTri be wdata s
  | .rdGpio2Data be => Sys2Proof.Machine.execRdGpio2Data be s
  | .wrGpio2Data be wdata => Sys2Proof.Machine.execWrGpio2Data be wdata s
  | .rdGpio2Tri be => Sys2Proof.Machine.execRdGpio2Tri be s
  | .wrGpio2Tri be wdata => Sys2Proof.Machine.execWrGpio2Tri be wdata s
  | .rdGier be => Sys2Proof.Machine.execRdGier be s
  | .wrGier be wdata => Sys2Proof.Machine.execWrGier be wdata s
  | .rdIpisr be => Sys2Proof.Machine.execRdIpisr be s
  | .wrIpisr be wdata => Sys2Proof.Machine.execWrIpisr be wdata s
  | .rdIpier be => Sys2Proof.Machine.execRdIpier be s
  | .wrIpier be wdata => Sys2Proof.Machine.execWrIpier be wdata s

end Sys2Proof.Machine
end

