-- ==== Sys2Proof/Machine/Requests.lean ====
section
/-! DEFINITION. What one input does: a host access is decoded and run or refused (30_encoding.md R77, R80), a bus access
becomes a descriptor first (20_memory.md R56), a pin update changes input bits (42_channel_registers.md R146). -/

namespace Sys2Proof.Machine

open Sys2Proof

/-- An access to a word-aligned offset not in the map (20_memory.md R52, 30_encoding.md R77): `write` is its kind. -/
def unmappedAccess (write : Bool) (s : State) : Host.Outcome State Fault Refusal :=
  match s.params.unmappedPolicy with
  | .refuse => .next (s.refuse .unmapped)
  | .razWi => .next (s.complete (if write then .written else .rdata 0x00000000))

/-- A host access by its descriptor (30_encoding.md R77). -/
def accessStep (w : AccessWord) (s : State) : Host.Outcome State Fault Refusal :=
  match decode w with
  | .ok i => exec i s
  | .error .misaligned => .next (s.refuse .misaligned)
  | .error .unmapped => unmappedAccess (Descriptor.ofWord w).write s

/-- A pin update by the environment (42_channel_registers.md R146). -/
def pinStep (c : Channel) (p : Word) (s : State) : Host.Outcome State Fault Refusal :=
  match s.params.extPinUpdate with
  | .inputBits => .next (s.pinUpdate c p)
  | .absent => .refused .noPinUpdateStep

/-- One step of the agent that moves. -/
def perform (x : Input) (s : State) : Host.Outcome State Fault Refusal :=
  match x with
  | .access w => accessStep w s
  | .bus b => accessStep (b.descriptor s.params.busByteOrder).toWord s
  | .pin c p => pinStep c p s

/-- No agent moves: every piece of state keeps its value (60_exceptions.md R179, log entry 3). -/
def idleStep (s : State) : Host.Outcome State Fault Refusal :=
  .next s

end Sys2Proof.Machine
end

