-- ==== Sys2Proof/Machine/Step.lean ====
section
/-! DEFINITION. One step of the machine: the next input is taken and performed; with none, nothing changes. -/

namespace Sys2Proof.Machine

open Sys2Proof

/-- One step (00_scope.md R7, 20_memory.md R62, R66): the first input, where there is one, is one atomic step (R60). -/
def step (s : State) : Host.Outcome State Fault Refusal :=
  match s.takeInput with
  | none => idleStep s
  | some (x, s') => perform x s'

/-- `s` with the access of that table word put first in the input list; a word that is no 46-bit descriptor puts
nothing there (log entries 3 and 13). -/
def State.withFetchWord (s : State) (nbits w : Nat) : State :=
  match tableWord nbits w with
  | some v => { s with input := .access v :: s.input }
  | none => s

end Sys2Proof.Machine
end

