-- ==== Sys2Proof/Safety.lean ====
section
/-! DEFINITION. What claims about the machine are stated with: a run with no refusal, the invariant that ties the status
bits, the posted flags and the lines together, the states a run can reach, the access map as a table, and the views
of a state or an input that several claims use. Nothing here is called by `step`. -/

namespace Sys2Proof.Machine

open Sys2Proof

/-- No access of the run so far was refused (30_encoding.md R80): past a refusal the model does not know what the
hardware does. -/
abbrev State.Unrefused (s : State) : Prop :=
  s.refused = false

/-- Channel c's part of 10_state.md R38: (a) a SET status bit implies the posted flag; (b) the posted flag is the line
level. -/
abbrev State.CoherentAt (s : State) (c : Channel) : Prop :=
  ((s.chan c).isr = true → (s.chan c).posted = true) ∧ (s.chan c).posted = s.line c

/-- The invariant of 10_state.md R38, both channels. -/
abbrev State.Coherent (s : State) : Prop :=
  s.CoherentAt .ch1 ∧ s.CoherentAt .ch2

/-- The states of runs from reset (70_reset_and_hazards.md R190) under any parameters and any inputs. -/
inductive Reachable : State → Prop where
  /-- The reset state, with whatever the agents outside do. -/
  | reset (p : Params) (inputs : List Input) : Reachable { State.resetWith p with input := inputs }
  /-- One step of a reachable state. -/
  | step {s t : State} (h : Reachable s) (next : step s = .next t) : Reachable t

/-- One row of the access map (30_encoding.md R78): its key `{W, OFF}` and the access it selects. -/
structure MapRow where
  key : BitVec 10
  access : ByteEnable → Word → Instr

/-- The access map of 30_encoding.md R78, keys as its table prints them. -/
def accessMap : List MapRow :=
  [⟨0x000, fun be _ => .rdGpioData be⟩, ⟨0x200, fun be v => .wrGpioData be v⟩,
   ⟨0x004, fun be _ => .rdGpioTri be⟩, ⟨0x204, fun be v => .wrGpioTri be v⟩,
   ⟨0x008, fun be _ => .rdGpio2Data be⟩, ⟨0x208, fun be v => .wrGpio2Data be v⟩,
   ⟨0x00C, fun be _ => .rdGpio2Tri be⟩, ⟨0x20C, fun be v => .wrGpio2Tri be v⟩] ++
  [⟨0x11C, fun be _ => .rdGier be⟩, ⟨0x31C, fun be v => .wrGier be v⟩,
   ⟨0x120, fun be _ => .rdIpisr be⟩, ⟨0x320, fun be v => .wrIpisr be v⟩,
   ⟨0x128, fun be _ => .rdIpier be⟩, ⟨0x328, fun be v => .wrIpier be v⟩]

/-- The descriptor of an input that is a host access, `none` for a pin update. -/
def accessWordOf (order : ByteOrder) (x : Input) : Option AccessWord :=
  match x with
  | .access w => some w
  | .bus b => some (b.descriptor order).toWord
  | .pin _ _ => none

/-- The offset field of a descriptor word (30_encoding.md R71). -/
def offsetOf (w : AccessWord) : Nat :=
  (w.extractLsb' 36 9).toNat

/-- The word-aligned offsets the map does not list, as 20_memory.md R52 gives them. -/
abbrev UnmappedOffset (off : Nat) : Prop :=
  off % 4 = 0 ∧ ((0x010 ≤ off ∧ off ≤ 0x118) ∨ off = 0x124 ∨ (0x12C ≤ off ∧ off ≤ 0x1FC))

/-- The read of channel c's data register. -/
def dataRead (c : Channel) (be : ByteEnable) : Instr :=
  match c with
  | .ch1 => .rdGpioData be
  | .ch2 => .rdGpio2Data be

/-- The write of channel c's data register. -/
def dataWriteOf (c : Channel) (be : ByteEnable) (v : Word) : Instr :=
  match c with
  | .ch1 => .wrGpioData be v
  | .ch2 => .wrGpio2Data be v

/-- The bit of IPISR and IPIER that belongs to channel c (10_state.md R29, R31). -/
def bitOf (c : Channel) : Nat :=
  match c with
  | .ch1 => 0
  | .ch2 => 1

/-- The calls the log records on a target, oldest first. -/
def callsOn (log : List Event) (t : Target) : List Call :=
  (log.filter (fun e => e.target = t)).map Event.call

/-- `s` with the three enable bits replaced. -/
def State.withEnables (s : State) (g e1 e2 : Bool) : State :=
  { s with gie := g, ch1 := { s.ch1 with ier := e1 }, ch2 := { s.ch2 with ier := e2 } }

/-- `s` under another `CTRL_WRITE_MODE`. -/
def State.withCtrlMode (s : State) (m : CtrlWriteMode) : State :=
  { s with params := { s.params with ctrlWriteMode := m } }

/-- `s` under another `DATA_WRITE_INPUT_BITS`. -/
def State.withInputBits (s : State) (m : DataWriteInputBits) : State :=
  { s with params := { s.params with dataWriteInputBits := m } }

end Sys2Proof.Machine
end

