-- ==== Sys2Proof/Certificates/Slice0/Obligations.lean ====
section
/-! DEFINITION. The statements for the provers, from the numbered rules of spec/. Each docstring names the rules it
formalises and, where a clause rests on a decision the spec marks as its own (D<n> of 92_eei_decisions.md) or on a
choice of this model (a log entry), names that. -/

open Sys2Proof Sys2Proof.Machine

/-! ### Encoding and decode -/

/-- Every access is read back from its descriptor word (30_encoding.md R71, R77, R78; the layout is decision D2). -/
def Obligations.EncodedAccessDecodesToItself : Prop :=
  ∀ i : Instr, i.wellFormed = true → decode (encode i) = .ok i

/-- A word that decodes is the word of its access: all 46 bits for a write, all but the ignored `WDATA` for a read
(30_encoding.md R71, R73, R76; the layout is decision D2, the zero `WDATA` of an encoded read is log entry 12). -/
def Obligations.DecodedWordEncodesBack : Prop :=
  ∀ (w : AccessWord) (i : Instr), decode w = .ok i →
    encode i = if w.getLsbD 45 then w else w &&& 0x3FFF00000000

/-- A word decodes to an access exactly when its key is a row of the access map, and to that row's access
(30_encoding.md R73, R78; keys and mnemonics are decisions D2 and D21). -/
def Obligations.AccessMapDecidesEveryWord : Prop :=
  ∀ (w : AccessWord) (i : Instr), decode w = .ok i ↔
    ∃ row ∈ accessMap, w.extractLsb' 36 10 = row.key ∧ i = row.access (w.extractLsb' 32 4) (w.extractLsb' 0 32)

/-- `decode` classifies a word as misaligned exactly when its offset is not word-aligned, and as unmapped exactly at the
offsets R52 lists (20_memory.md R52, R57; 30_encoding.md R77, R79; decisions D2 and D4). The class is the same under both
values of `UNMAPPED_POLICY` (D3); what becomes of an unmapped access is stated by `RefusedAccessOnlySetsTheMark` under
`REFUSE` and by `UnmappedReadsZeroWritesIgnored` under `RAZ_WI`. -/
def Obligations.RefusalReasonsByOffset : Prop :=
  ∀ w : AccessWord,
    (decode w = .error .misaligned ↔ offsetOf w % 4 ≠ 0) ∧
    (decode w = .error .unmapped ↔ UnmappedOffset (offsetOf w))

/-- Descriptor words of 95_test_vectors.md P1, P2 and P3 decode to the accesses beside them. -/
def Obligations.PrintedDescriptorsDecode : Prop :=
  decode 0x204FFFFF0000 = .ok (.wrGpioTri 0xF 0xFFFF0000) ∧
  decode 0x200312345678 = .ok (.wrGpioData 0x3 0x12345678) ∧
  decode 0x000100000000 = .ok (.rdGpioData 0x1) ∧
  decode 0x31CF80000000 = .ok (.wrGier 0xF 0x80000000) ∧
  decode 0x120F00000000 = .ok (.rdIpisr 0xF) ∧
  decode 0x20CF000000FF = .ok (.wrGpio2Tri 0xF 0x000000FF) ∧
  decode 0x320E00000002 = .ok (.wrIpisr 0xE 0x00000002) ∧
  decode 0x328FFFFFFFFC = .ok (.wrIpier 0xF 0xFFFFFFFC)

/-! ### Operands -/

/-- Bit i of the expanded mask is the byte-enable bit of i's lane (20_memory.md R55, 30_encoding.md R74; the lane
order is decision D5). -/
def Obligations.ByteEnableMaskSelectsLanes : Prop :=
  ∀ (be : ByteEnable) (i : Nat), i < 32 → (bemask be).getLsbD i = be.getLsbD (i / 8)

/-- The masks of sub-word bus accesses in both byte orders (20_memory.md R56; decision D6; the two-byte masks under
`BIG` are log entry 4). -/
def Obligations.SubWordMasksByByteOrder : Prop :=
  (∀ i : Fin 4, spanMask .little (.byte i) = 1#4 <<< i.val ∧ spanMask .big (.byte i) = 1#4 <<< (3 - i.val)) ∧
  (∀ j : Fin 2, spanMask .little (.half j) = 0b11#4 <<< (2 * j.val) ∧
    spanMask .big (.half j) = 0b11#4 <<< (2 - 2 * j.val)) ∧
  (∀ o : ByteOrder, spanMask o .word = 0xF#4)

/-! ### The step -/

/-- When the next input is a host access whose descriptor decodes, the step takes it off the list and runs exactly
that access (00_scope.md R7, 30_encoding.md R77; the input list is log entry 3). -/
def Obligations.StepRunsDecodedAccess : Prop :=
  ∀ (s : State) (x : Input) (rest : List Input) (w : AccessWord) (i : Instr),
    s.input = x :: rest → accessWordOf s.params.busByteOrder x = some w → decode w = .ok i →
    step s = exec i { s with input := rest }

/-- A misaligned access, and an unmapped one under `UNMAPPED_POLICY = REFUSE`, change nothing but the refused mark and
what the access hands back; and no step clears the mark (30_encoding.md R80; decisions D3, D4; that a refusal is a next
state is log entry 5). -/
def Obligations.RefusedAccessOnlySetsTheMark : Prop :=
  (∀ (s : State) (x : Input) (rest : List Input) (w : AccessWord),
    s.input = x :: rest → accessWordOf s.params.busByteOrder x = some w →
    (offsetOf w % 4 ≠ 0 →
      step s = .next { s with input := rest, refused := true, result := .refused .misaligned }) ∧
    (UnmappedOffset (offsetOf w) → s.params.unmappedPolicy = .refuse →
      step s = .next { s with input := rest, refused := true, result := .refused .unmapped })) ∧
  (∀ s t : State, step s = .next t → t.Unrefused → s.Unrefused)

/-- Under `RAZ_WI` an unmapped read returns 0 and an unmapped write changes nothing, and the access index advances
(20_memory.md R52, 30_encoding.md R77; decision D3). -/
def Obligations.UnmappedReadsZeroWritesIgnored : Prop :=
  ∀ (s : State) (x : Input) (rest : List Input) (w : AccessWord),
    s.input = x :: rest → accessWordOf s.params.busByteOrder x = some w →
    UnmappedOffset (offsetOf w) → s.params.unmappedPolicy = .razWi →
    step s = .next { s with
      input := rest
      pc := s.pc + 1
      result := if w.getLsbD 45 then .written else .rdata 0 }

/-- A pin update replaces the input bits of its channel's data register by the draw's and changes nothing else; under
`EXT_PIN_UPDATE = NONE` there is no such step (42_channel_registers.md R146, R147; decision D14; log entries 7, 10). -/
def Obligations.PinUpdateChangesInputBitsOnly : Prop :=
  ∀ (s : State) (rest : List Input) (p : Word),
    (s.params.extPinUpdate = .inputBits →
      (s.input = .pin .ch1 p :: rest → step s = .next { s with
        input := rest
        ch1 := { s.ch1 with data := (s.ch1.data &&& ~~~s.ch1.tri) ||| (p &&& s.ch1.tri) } }) ∧
      (s.input = .pin .ch2 p :: rest → step s = .next { s with
        input := rest
        ch2 := { s.ch2 with data := (s.ch2.data &&& ~~~s.ch2.tri) ||| (p &&& s.ch2.tri) } })) ∧
    (s.params.extPinUpdate = .absent →
      ∀ c : Channel, s.input = .pin c p :: rest → step s = .refused .noPinUpdateStep)

/-- With nothing to do the machine stays as it is (60_exceptions.md R179; log entry 3). -/
def Obligations.IdleStepChangesNothing : Prop :=
  ∀ s : State, s.input = [] → step s = .next s

/-- One step takes exactly the first input, and leaves the parameters alone (20_memory.md R60, R62, R66; the input
list and the parameters in State are log entries 1 and 3). -/
def Obligations.StepTakesOneInputKeepsParameters : Prop :=
  ∀ s t : State, step s = .next t → t.input = s.input.tail ∧ t.params = s.params

/-- The access index is 0 at reset, advances by one at the end of every access that is not refused, and stays at a
refused access, a pin update and an idle step (10_state.md R41, 42_channel_registers.md R147; decision D17). -/
def Obligations.AccessIndexCountsCompletedAccesses : Prop :=
  State.reset.pc = 0 ∧
  ∀ s t : State, step s = .next t →
    t.pc = match s.input with
      | [] => s.pc
      | .pin _ _ :: _ => s.pc
      | _ :: _ => match t.result with
        | .refused _ => s.pc
        | _ => s.pc + 1

/-- Every access at a word-aligned offset of the register map, with any mask, any write value and in any state, ends in
a next state that is not a refusal (40_access_common.md R96), with the access index one higher (10_state.md R41, decision
D17), handing back a value exactly when it is a read (30_encoding.md R72). That the result stands in a field and the access
comes off an input list are the model's choices (log entries 6 and 3). -/
def Obligations.MappedAccessAlwaysCompletes : Prop :=
  ∀ (s : State) (x : Input) (rest : List Input) (w : AccessWord),
    s.input = x :: rest → accessWordOf s.params.busByteOrder x = some w →
    offsetOf w ∈ [0x000, 0x004, 0x008, 0x00C, 0x11C, 0x120, 0x128] →
    ∃ t, step s = .next t ∧ t.pc = s.pc + 1 ∧ t.refused = s.refused ∧
      (w.getLsbD 45 = true → t.result = .written) ∧ (w.getLsbD 45 = false → ∃ v, t.result = .rdata v)

/-- A step stops only at a pin update under `EXT_PIN_UPDATE = NONE`; every other state has a next one
(40_access_common.md R96, 60_exceptions.md R160; log entries 5 and 10). -/
def Obligations.StepStopsOnlyAtAbsentPinUpdate : Prop :=
  ∀ s : State, (∃ t, step s = .next t) ∨
    (step s = .refused .noPinUpdateStep ∧ s.params.extPinUpdate = .absent ∧
      ∃ c p rest, s.input = .pin c p :: rest)

/-! ### The accesses -/

/-- The reads with no side effect return the register's fields under the mask and change nothing else
(41_interrupt_registers.md R101, R105, R110; 42_channel_registers.md R136, R143; unselected lanes read 0 by decision D7;
where the value goes is log entry 6). -/
def Obligations.PlainReadsReturnTheRegister : Prop :=
  ∀ (be : ByteEnable) (s : State),
    exec (.rdGier be) s = .next { s with
      pc := s.pc + 1, result := .rdata ((if s.gie then 0x80000000 else 0) &&& bemask be) } ∧
    exec (.rdIpier be) s = .next { s with
      pc := s.pc + 1
      result := .rdata (((if s.ch1.ier then 1 else 0) ||| (if s.ch2.ier then 2 else 0)) &&& bemask be) } ∧
    exec (.rdIpisr be) s = .next { s with
      pc := s.pc + 1
      result := .rdata (((if s.ch1.isr then 1 else 0) ||| (if s.ch2.isr then 2 else 0)) &&& bemask be) } ∧
    exec (.rdGpioTri be) s = .next { s with pc := s.pc + 1, result := .rdata (s.ch1.tri &&& bemask be) } ∧
    exec (.rdGpio2Tri be) s = .next { s with pc := s.pc + 1, result := .rdata (s.ch2.tri &&& bemask be) }

/-- A read of a data register acknowledges a SET status bit (status and posted flag cleared, one `lower`), does
nothing to a CLEAR one, whatever the mask, and returns the stored value under the mask (42_channel_registers.md R131,
R132, R139; decisions D7 and D10). -/
def Obligations.DataReadAcknowledgesAndReturns : Prop :=
  ∀ (be : ByteEnable) (s : State),
    exec (.rdGpioData be) s = .next { s with
      ch1 := { s.ch1 with isr := false, posted := s.ch1.posted && !s.ch1.isr }
      events := s.events ++ (if s.ch1.isr then [⟨.intrTarget, .lower⟩] else [])
      pc := s.pc + 1
      result := .rdata (s.ch1.data &&& bemask be) } ∧
    exec (.rdGpio2Data be) s = .next { s with
      ch2 := { s.ch2 with isr := false, posted := s.ch2.posted && !s.ch2.isr }
      events := s.events ++ (if s.ch2.isr then [⟨.intrTarget2, .lower⟩] else [])
      pc := s.pc + 1
      result := .rdata (s.ch2.data &&& bemask be) }

/-- A data-register write under `PRESERVE`: in selected lanes the output bits take the written value; every other bit,
and everything else, stays (42_channel_registers.md R133, R134, R141; 90_conflicts.md C1; decision D9). -/
def Obligations.DataWriteUnderPreserve : Prop :=
  ∀ (be : ByteEnable) (v : Word) (s : State), s.params.dataWriteInputBits = .preserve →
    exec (.wrGpioData be v) s = .next { s with
      ch1 := { s.ch1 with data :=
        (s.ch1.data &&& ~~~(bemask be &&& ~~~s.ch1.tri)) ||| (v &&& (bemask be &&& ~~~s.ch1.tri)) }
      pc := s.pc + 1
      result := .written } ∧
    exec (.wrGpio2Data be v) s = .next { s with
      ch2 := { s.ch2 with data :=
        (s.ch2.data &&& ~~~(bemask be &&& ~~~s.ch2.tri)) ||| (v &&& (bemask be &&& ~~~s.ch2.tri)) }
      pc := s.pc + 1
      result := .written }

/-- A data-register write under `CLEAR`: as under `PRESERVE`, but the input bits of selected lanes become 0
(42_channel_registers.md R133, R134, R141; 90_conflicts.md C1; decision D9). -/
def Obligations.DataWriteUnderClear : Prop :=
  ∀ (be : ByteEnable) (v : Word) (s : State), s.params.dataWriteInputBits = .clear →
    exec (.wrGpioData be v) s = .next { s with
      ch1 := { s.ch1 with data := (s.ch1.data &&& ~~~bemask be) ||| (v &&& (bemask be &&& ~~~s.ch1.tri)) }
      pc := s.pc + 1
      result := .written } ∧
    exec (.wrGpio2Data be v) s = .next { s with
      ch2 := { s.ch2 with data := (s.ch2.data &&& ~~~bemask be) ||| (v &&& (bemask be &&& ~~~s.ch2.tri)) }
      pc := s.pc + 1
      result := .written }

/-- A data-register write bit by bit, under either reading: an unselected lane keeps its bit; in a selected lane an
output bit takes the written bit, and an input bit keeps its value (`PRESERVE`) or becomes 0 (`CLEAR`)
(42_channel_registers.md R134; decision D9). -/
def Obligations.DataWriteBitByBit : Prop :=
  ∀ (c : Channel) (be : ByteEnable) (v : Word) (s : State), ∃ t, exec (dataWriteOf c be v) s = .next t ∧
    ∀ k, k < 32 → (t.chan c).data.getLsbD k =
      if be.getLsbD (k / 8) = false then (s.chan c).data.getLsbD k
      else if (s.chan c).tri.getLsbD k = false then v.getLsbD k
      else match s.params.dataWriteInputBits with
        | .preserve => (s.chan c).data.getLsbD k
        | .clear => false

/-- A tri-state write stores the selected lanes and changes nothing else (40_access_common.md R90;
42_channel_registers.md R137, R138, R144; the lane order is decision D5). -/
def Obligations.TriStateWriteStoresSelectedLanes : Prop :=
  ∀ (be : ByteEnable) (v : Word) (s : State),
    exec (.wrGpioTri be v) s = .next { s with
      ch1 := { s.ch1 with tri := (s.ch1.tri &&& ~~~bemask be) ||| (v &&& bemask be) }
      pc := s.pc + 1
      result := .written } ∧
    exec (.wrGpio2Tri be v) s = .next { s with
      ch2 := { s.ch2 with tri := (s.ch2.tri &&& ~~~bemask be) ||| (v &&& bemask be) }
      pc := s.pc + 1
      result := .written }

/-- A GIER write stores bit 31 of the written value when lane 3 is selected and nothing otherwise, under either
`CTRL_WRITE_MODE` (40_access_common.md R93, 41_interrupt_registers.md R102; decision D8). -/
def Obligations.GierWriteStoresBit31 : Prop :=
  ∀ (be : ByteEnable) (v : Word) (s : State),
    exec (.wrGier be v) s = .next { s with
      gie := if be.getLsbD 3 then v.getLsbD 31 else s.gie
      pc := s.pc + 1
      result := .written }

/-- A full-width GIER write leaves GIER reading as the written value with every bit but bit 31 forced to 0, and every
other register, both posted flags and the event log as they were (41_interrupt_registers.md R100). -/
def Obligations.FullGierWriteForcesReservedBitsToZero : Prop :=
  ∀ (v : Word) (s : State), ∃ t, exec (.wrGier 0xF v) s = .next t ∧ t.reg .gier = v &&& 0x80000000 ∧
    (∀ r, r ≠ .gier → t.reg r = s.reg r) ∧ t.ch1.posted = s.ch1.posted ∧ t.ch2.posted = s.ch2.posted ∧
    t.events = s.events

/-- An IPIER write assigns bits 0 and 1 of the written value when lane 0 is selected and nothing otherwise, under
either `CTRL_WRITE_MODE` (40_access_common.md R93, 41_interrupt_registers.md R106; decision D8). -/
def Obligations.IpierWriteAssignsBothBits : Prop :=
  ∀ (be : ByteEnable) (v : Word) (s : State),
    exec (.wrIpier be v) s = .next { s with
      ch1 := { s.ch1 with ier := if be.getLsbD 0 then v.getLsbD 0 else s.ch1.ier }
      ch2 := { s.ch2 with ier := if be.getLsbD 0 then v.getLsbD 1 else s.ch2.ier }
      pc := s.pc + 1
      result := .written }

/-- A full-width IPIER write leaves IPIER reading as the two-bit selector of the written value, whatever it held:
direct assignment, no accumulation, reserved bits 0 (41_interrupt_registers.md R103). -/
def Obligations.FullIpierWriteReplacesThePair : Prop :=
  ∀ (v : Word) (s : State), ∃ t, exec (.wrIpier 0xF v) s = .next t ∧ t.reg .ipier = v &&& 0b11 ∧
    t.ch1.ier = v.getLsbD 0 ∧ t.ch2.ier = v.getLsbD 1 ∧
    (∀ r, r ≠ .ipier → t.reg r = s.reg r) ∧ (∀ c, (t.chan c).posted = (s.chan c).posted) ∧ t.events = s.events

/-- An IPISR write, every mask and both modes: each selected status bit toggles on its own value; CLEAR to SET also
sets the posted flag and logs one `raise`, channel 1's before channel 2's; with lane 0 not selected the selector is 0
(`LANE_GATED`) or the stored pair (`MERGED`) (40_access_common.md R93; 41_interrupt_registers.md R107 to R109, R111;
decisions D8 and D15). -/
def Obligations.IpisrWriteTogglesSelectedBits : Prop :=
  ∀ (be : ByteEnable) (v : Word) (s : State),
    let sel1 := if be.getLsbD 0 then v.getLsbD 0 else (s.params.ctrlWriteMode = .merged && s.ch1.isr)
    let sel2 := if be.getLsbD 0 then v.getLsbD 1 else (s.params.ctrlWriteMode = .merged && s.ch2.isr)
    exec (.wrIpisr be v) s = .next { s with
      ch1 := { s.ch1 with isr := s.ch1.isr ^^ sel1, posted := s.ch1.posted || (sel1 && !s.ch1.isr) }
      ch2 := { s.ch2 with isr := s.ch2.isr ^^ sel2, posted := s.ch2.posted || (sel2 && !s.ch2.isr) }
      events := s.events ++ (if sel1 && !s.ch1.isr then [⟨.intrTarget, .raise⟩] else []) ++
        (if sel2 && !s.ch2.isr then [⟨.intrTarget2, .raise⟩] else [])
      pc := s.pc + 1
      result := .written }

/-- A full-width IPISR write toggles each channel's status bit exactly when its selector bit is 1, from that channel's
own value; a bit that is SET is cleared with no call and the flag kept, a bit that is CLEAR is set with the flag and
one `raise` on its own target (41_interrupt_registers.md R107, R108). -/
def Obligations.FullIpisrWriteTogglesEachChannelAlone : Prop :=
  ∀ (v : Word) (s : State), ∃ t, exec (.wrIpisr 0xF v) s = .next t ∧
    ∀ c : Channel,
      (v.getLsbD (bitOf c) = false → t.chan c = s.chan c ∧
        callsOn t.events (targetOf c) = callsOn s.events (targetOf c)) ∧
      (v.getLsbD (bitOf c) = true → (s.chan c).isr = true → t.chan c = { s.chan c with isr := false } ∧
        callsOn t.events (targetOf c) = callsOn s.events (targetOf c)) ∧
      (v.getLsbD (bitOf c) = true → (s.chan c).isr = false →
        t.chan c = { s.chan c with isr := true, posted := true } ∧
        callsOn t.events (targetOf c) = callsOn s.events (targetOf c) ++ [.raise])

/-! ### Frames -/

/-- The reads of GIER, IPIER, IPISR and the tri-state registers leave every register, both posted flags, the event log,
the refused mark, the parameters and the input list as they were (40_access_common.md R92, 41_interrupt_registers.md
R101, R105, R110; 42_channel_registers.md R136, R143). -/
def Obligations.PlainReadFrame : Prop :=
  ∀ (i : Instr) (be : ByteEnable) (s t : State),
    i ∈ [.rdGier be, .rdIpier be, .rdIpisr be, .rdGpioTri be, .rdGpio2Tri be] → exec i s = .next t →
    (∀ r, t.reg r = s.reg r) ∧ (∀ c, (t.chan c).posted = (s.chan c).posted) ∧ t.events = s.events ∧
    t.refused = s.refused ∧ t.params = s.params ∧ t.input = s.input

/-- A data-register read leaves every register but IPISR, the other channel's state and its calls, GIER, IPIER, the
refused mark, the parameters and the input list as they were (42_channel_registers.md R131, R132, R139). -/
def Obligations.DataReadFrame : Prop :=
  ∀ (c : Channel) (be : ByteEnable) (s t : State), exec (dataRead c be) s = .next t →
    (∀ r, r ≠ .ipisr → t.reg r = s.reg r) ∧
    (∀ d, d ≠ c → t.chan d = s.chan d ∧ callsOn t.events (targetOf d) = callsOn s.events (targetOf d)) ∧
    t.refused = s.refused ∧ t.params = s.params ∧ t.input = s.input

/-- Writes of the channel registers change one register alone, the one named: no other register, no status bit, no
posted flag, no line (42_channel_registers.md R133, R135, R137, R138, R141, R142, R144). That the parameters and the input
list stand in the state, unchanged here, is the model's choice (log entries 1 and 3). -/
def Obligations.ChannelWriteFrame : Prop :=
  ∀ (be : ByteEnable) (v : Word) (s t : State) (i : Instr) (r : Reg),
    (i, r) ∈ [(.wrGpioData be v, .gpioData), (.wrGpioTri be v, .gpioTri), (.wrGpio2Data be v, .gpio2Data),
      (.wrGpio2Tri be v, .gpio2Tri)] → exec i s = .next t →
    (∀ q, q ≠ r → t.reg q = s.reg q) ∧ (∀ c, (t.chan c).posted = (s.chan c).posted) ∧ t.events = s.events ∧
    t.refused = s.refused ∧ t.params = s.params ∧ t.input = s.input

/-- Writes of GIER, IPIER and IPISR change one register alone, the one named; only an IPISR write touches the posted
flags and the log, and it never clears a flag (41_interrupt_registers.md R100, R103, R104, R111). The parameters and the
input list are the model's fields (log entries 1 and 3). -/
def Obligations.InterruptWriteFrame : Prop :=
  ∀ (be : ByteEnable) (v : Word) (s t : State) (i : Instr) (r : Reg),
    (i, r) ∈ [(.wrGier be v, .gier), (.wrIpier be v, .ipier), (.wrIpisr be v, .ipisr)] → exec i s = .next t →
    (∀ q, q ≠ r → t.reg q = s.reg q) ∧
    (r ≠ .ipisr → (∀ c, (t.chan c).posted = (s.chan c).posted) ∧ t.events = s.events) ∧
    (∀ c, (s.chan c).posted = true → (t.chan c).posted = true) ∧
    t.refused = s.refused ∧ t.params = s.params ∧ t.input = s.input

/-! ### The interrupt state machine -/

/-- The status-bit state machine of each channel, over every access and the pin update: what sets the bit, what clears
it, with which posted flag and which call, and that nothing else happens to bit, flag or line (60_exceptions.md R165).
Which lane selects, and that under `MERGED` an IPISR write with lane 0 not selected is a write of the stored pair
(40_access_common.md R93), is decision D8; that a read of any mask acknowledges is D10; the pin update (42_channel_registers.md
R146, R147) is D14, and its place in an input list log entry 3. -/
def Obligations.StatusBitStateMachine : Prop :=
  (∀ (i : Instr) (s t : State) (c : Channel), exec i s = .next t →
    ((s.chan c).isr = false → (t.chan c).isr = true →
      (∃ be v, i = .wrIpisr be v ∧ be.getLsbD 0 = true ∧ v.getLsbD (bitOf c) = true) ∧
      (t.chan c).posted = true ∧ callsOn t.events (targetOf c) = callsOn s.events (targetOf c) ++ [.raise]) ∧
    ((s.chan c).isr = true → (t.chan c).isr = false →
      ((∃ be v, i = .wrIpisr be v ∧ ((be.getLsbD 0 = true ∧ v.getLsbD (bitOf c) = true) ∨
          (be.getLsbD 0 = false ∧ s.params.ctrlWriteMode = .merged))) ∧
        (t.chan c).posted = (s.chan c).posted ∧
        callsOn t.events (targetOf c) = callsOn s.events (targetOf c)) ∨
      ((∃ be, i = dataRead c be) ∧ (t.chan c).posted = false ∧
        callsOn t.events (targetOf c) = callsOn s.events (targetOf c) ++ [.lower])) ∧
    ((t.chan c).isr = (s.chan c).isr →
      (t.chan c).posted = (s.chan c).posted ∧
      callsOn t.events (targetOf c) = callsOn s.events (targetOf c)) ∧
    ((∃ be v, i = .wrIpisr be v ∧ be.getLsbD 0 = true ∧ v.getLsbD (bitOf c) = true) →
      (t.chan c).isr = !(s.chan c).isr) ∧
    ((∃ be v, i = .wrIpisr be v ∧ be.getLsbD 0 = false ∧ s.params.ctrlWriteMode = .merged) →
      (t.chan c).isr = false) ∧
    ((∃ be, i = dataRead c be) → (t.chan c).isr = false)) ∧
  (∀ (s t : State) (c d : Channel) (p : Word) (rest : List Input), s.input = .pin d p :: rest → step s = .next t →
    (t.chan c).isr = (s.chan c).isr ∧ (t.chan c).posted = (s.chan c).posted ∧ t.events = s.events)

/-- The three phases of a channel under an IPISR write with its selector bit 1 and under a data read
(60_exceptions.md R166, which the spec derives from R165 and R38). -/
def Obligations.ChannelPhaseTransitions : Prop :=
  ∀ (s : State) (c : Channel) (be be' : ByteEnable) (v : Word),
    be.getLsbD 0 = true → v.getLsbD (bitOf c) = true →
    ∃ t u, exec (.wrIpisr be v) s = .next t ∧ exec (dataRead c be') s = .next u ∧
      (s.phase c = some .idle → t.phase c = some .pending ∧ u.phase c = some .idle) ∧
      (s.phase c = some .pending → t.phase c = some .stale ∧ u.phase c = some .idle) ∧
      (s.phase c = some .stale → t.phase c = some .pending ∧ u.phase c = some .stale)

/-- No step takes a STALE channel back to IDLE: it stays STALE or, by an IPISR write that selects it, becomes PENDING
(60_exceptions.md R166, 70_reset_and_hazards.md R197; derived by the spec). -/
def Obligations.StaleNeverGoesStraightToIdle : Prop :=
  ∀ (s t : State) (c : Channel), s.phase c = some .stale → step s = .next t →
    t.phase c = some .stale ∨ (t.phase c = some .pending ∧
      ∃ x rest w be v, s.input = x :: rest ∧ accessWordOf s.params.busByteOrder x = some w ∧
        decode w = .ok (.wrIpisr be v) ∧ be.getLsbD 0 = true ∧ v.getLsbD (bitOf c) = true)

/-- A channel that is STALE and written to SET logs another `raise` on a line that is already up, and the line stays
up (60_exceptions.md R168; the log and the level are decision D16). -/
def Obligations.SecondRaiseIsLoggedAndLineStaysUp : Prop :=
  ∀ (s : State) (c : Channel) (be : ByteEnable) (v : Word),
    s.phase c = some .stale → be.getLsbD 0 = true → v.getLsbD (bitOf c) = true →
    s.line c = true ∧ ∃ t, exec (.wrIpisr be v) s = .next t ∧ t.line c = true ∧
      callsOn t.events (targetOf c) = callsOn s.events (targetOf c) ++ [.raise]

/-- The calls one access makes: an IPISR write zero, one or two raises, channel 1's first; a data read zero or one
lower on its own target; any other access none (60_exceptions.md R169; the order is decision D15). -/
def Obligations.SignalCallsOfOneAccess : Prop :=
  ∀ (i : Instr) (s t : State), exec i s = .next t →
    ∃ calls : List Event, t.events = s.events ++ calls ∧
      match i with
      | .wrIpisr _ _ => calls ∈ [[], [⟨.intrTarget, .raise⟩], [⟨.intrTarget2, .raise⟩],
          [⟨.intrTarget, .raise⟩, ⟨.intrTarget2, .raise⟩]]
      | .rdGpioData _ => calls ∈ [[], [⟨.intrTarget, .lower⟩]]
      | .rdGpio2Data _ => calls ∈ [[], [⟨.intrTarget2, .lower⟩]]
      | _ => calls = []

/-- The level of a line: 0 with no event for its target, and after one more event, that event's if it is for the
target and otherwise what it was (10_state.md R37). -/
def Obligations.LevelFollowsTheLastEvent : Prop :=
  ∀ (log : List Event) (e : Event) (t : Target),
    ((∀ x ∈ log, x.target ≠ t) → level log t = false) ∧
    (e.target = t → (level (log ++ [e]) t = true ↔ e.call = .raise)) ∧
    (e.target ≠ t → level (log ++ [e]) t = level log t)

/-! ### Invariants and whole-machine rules -/

/-- The reset state meets the invariant of R38, whatever the parameters (10_state.md R38, 70_reset_and_hazards.md R190;
reset values are decision D12). -/
def Obligations.ResetIsCoherent : Prop :=
  ∀ (p : Params) (inputs : List Input), { State.resetWith p with input := inputs }.Coherent

/-- Every step keeps the invariant: a SET status bit implies the posted flag, and the posted flag is the line level
(10_state.md R38, derived there by the spec from R33, R37, R111 and R131). -/
def Obligations.StepKeepsCoherence : Prop :=
  ∀ s t : State, s.Coherent → step s = .next t → t.Coherent

/-- Every state reachable from reset, under any parameters and any inputs, meets the invariant; and the converse of its
first part fails in a reachable state (10_state.md R38, derived there by the spec). -/
def Obligations.ReachableStatesAreCoherent : Prop :=
  (∀ s : State, Reachable s → s.Coherent) ∧
  ∃ s : State, Reachable s ∧ s.ch1.isr = false ∧ s.ch1.posted = true ∧ s.line .ch1 = true

/-- GIE and the IPIER bits gate nothing: two states that differ only in them go, under every access but a read of GIER
or IPIER, to states that differ at most in them, so with the same status bits, flags, calls and read value
(10_state.md R28, R30; 41_interrupt_registers.md R104; 60_exceptions.md R163; 70_reset_and_hazards.md R199; the spec marks
R30 and R104 as derived). -/
def Obligations.EnablesGateNothing : Prop :=
  ∀ (i : Instr) (s t : State), (∀ be, i ≠ .rdGier be ∧ i ≠ .rdIpier be) → exec i s = .next t →
    ∀ g e1 e2, ∃ g' e1' e2', exec i (s.withEnables g e1 e2) = .next (t.withEnables g' e1' e2')

/-- No channel-1 access reads or writes channel 2's state or makes a call on its target, and the other way round
(10_state.md R26, 42_channel_registers.md R145). -/
def Obligations.ChannelsShareNoState : Prop :=
  (∀ (i : Instr) (be : ByteEnable) (v : Word) (s t : State) (other : ChannelState),
    i ∈ [.rdGpioData be, .wrGpioData be v, .rdGpioTri be, .wrGpioTri be v] → exec i s = .next t →
    t.ch2 = s.ch2 ∧ callsOn t.events .intrTarget2 = callsOn s.events .intrTarget2 ∧
    exec i { s with ch2 := other } = .next { t with ch2 := other }) ∧
  (∀ (i : Instr) (be : ByteEnable) (v : Word) (s t : State) (other : ChannelState),
    i ∈ [.rdGpio2Data be, .wrGpio2Data be v, .rdGpio2Tri be, .wrGpio2Tri be v] → exec i s = .next t →
    t.ch1 = s.ch1 ∧ callsOn t.events .intrTarget = callsOn s.events .intrTarget ∧
    exec i { s with ch1 := other } = .next { t with ch1 := other })

/-- The two `CTRL_WRITE_MODE` values agree on every access but an IPISR write with lane 0 not selected; there
`LANE_GATED` changes no register and no line and `MERGED` clears every SET status bit with no call, flags kept
(40_access_common.md R93, derived there by the spec; 70_reset_and_hazards.md R200; decision D8). -/
def Obligations.CtrlWriteModesDifferOnlyAtIpisr : Prop :=
  (∀ (i : Instr) (s t : State), (∀ be v, i = .wrIpisr be v → be.getLsbD 0 = true) →
    exec i (s.withCtrlMode .laneGated) = .next (t.withCtrlMode .laneGated) →
    exec i (s.withCtrlMode .merged) = .next (t.withCtrlMode .merged)) ∧
  (∀ (be : ByteEnable) (v : Word) (s : State), be.getLsbD 0 = false →
    exec (.wrIpisr be v) (s.withCtrlMode .laneGated) =
      .next { s.withCtrlMode .laneGated with pc := s.pc + 1, result := .written } ∧
    exec (.wrIpisr be v) (s.withCtrlMode .merged) =
      .next { s.withCtrlMode .merged with
        ch1 := { s.ch1 with isr := false }
        ch2 := { s.ch2 with isr := false }
        pc := s.pc + 1
        result := .written })

/-- The two `DATA_WRITE_INPUT_BITS` values agree on every access from a state where no input bit of a data register
is 1 (42_channel_registers.md R134; decision D9). -/
def Obligations.InputBitReadingsAgreeOnClearInputs : Prop :=
  ∀ (i : Instr) (s t : State), s.ch1.data &&& s.ch1.tri = 0 → s.ch2.data &&& s.ch2.tri = 0 →
    exec i (s.withInputBits .preserve) = .next (t.withInputBits .preserve) →
    exec i (s.withInputBits .clear) = .next (t.withInputBits .clear)

/-- Under `PRESERVE` no access changes a data-register bit whose tri-state bit is 1 (10_state.md R40,
42_channel_registers.md R134; decision D9). -/
def Obligations.PreserveKeepsInputBits : Prop :=
  ∀ (i : Instr) (s t : State) (c : Channel) (k : Nat), s.params.dataWriteInputBits = .preserve →
    exec i s = .next t → (s.chan c).tri.getLsbD k = true →
    (t.chan c).data.getLsbD k = (s.chan c).data.getLsbD k

/-- A step changes an output bit of a data register only by a write of that register, with the bit's lane selected and
the bit's new value written (70_reset_and_hazards.md R201; that pins move input bits only is decision D14). -/
def Obligations.OutputBitsChangeOnlyByDataWrites : Prop :=
  ∀ (s t : State) (c : Channel) (k : Nat), step s = .next t → (s.chan c).tri.getLsbD k = false →
    (t.chan c).data.getLsbD k ≠ (s.chan c).data.getLsbD k →
    ∃ x rest w be v, s.input = x :: rest ∧ accessWordOf s.params.busByteOrder x = some w ∧
      decode w = .ok (dataWriteOf c be v) ∧ be.getLsbD (k / 8) = true ∧
      (t.chan c).data.getLsbD k = v.getLsbD k

/-- A second read of a data register, with nothing in between, changes no register, flag or line and makes no call
(20_memory.md R59). -/
def Obligations.SecondDataReadChangesNothing : Prop :=
  ∀ (c : Channel) (be be' : ByteEnable) (s t : State), exec (dataRead c be) s = .next t →
    ∃ u, exec (dataRead c be') t = .next u ∧ (∀ d, u.chan d = t.chan d) ∧ u.gie = t.gie ∧ u.events = t.events

/-- Writing the same value twice to IPISR toggles the selected bits twice: the status bits are back, and for each
selected channel the flag is set and one `raise` has been logged; unselected channels are untouched (20_memory.md R61,
41_interrupt_registers.md R111). -/
def Obligations.SameIpisrWriteTwiceRestoresStatus : Prop :=
  ∀ (be : ByteEnable) (v : Word) (s : State), be.getLsbD 0 = true →
    ∃ t u, exec (.wrIpisr be v) s = .next t ∧ exec (.wrIpisr be v) t = .next u ∧
      ∀ c : Channel, (u.chan c).isr = (s.chan c).isr ∧
        (v.getLsbD (bitOf c) = true → (u.chan c).posted = true ∧
          callsOn u.events (targetOf c) = callsOn s.events (targetOf c) ++ [.raise]) ∧
        (v.getLsbD (bitOf c) = false → u.chan c = s.chan c ∧
          callsOn u.events (targetOf c) = callsOn s.events (targetOf c))

/-- Reading IPISR and writing back exactly what was read clears every SET status bit, sets none, makes no call and
leaves flags and lines as they were (70_reset_and_hazards.md R197, R198, which the spec derives from R111). -/
def Obligations.WritingBackIpisrClearsSilently : Prop :=
  ∀ s : State, ∃ t u v, exec (.rdIpisr 0xF) s = .next t ∧ t.result = .rdata v ∧
    exec (.wrIpisr 0xF v) t = .next u ∧ u.reg .ipisr = 0 ∧ u.events = s.events ∧
    ∀ c : Channel, u.chan c = { s.chan c with isr := false }

/-- The reserved bits of GIER, IPIER and IPISR read 0 in every state, so after any write (10_state.md R32). -/
def Obligations.ReservedBitsAlwaysReadZero : Prop :=
  ∀ (s : State) (k : Nat),
    (k < 31 → (s.reg .gier).getLsbD k = false) ∧
    (2 ≤ k → (s.reg .ipier).getLsbD k = false) ∧
    (2 ≤ k → (s.reg .ipisr).getLsbD k = false)

/-- What reset leaves: the channel registers at the parameters' reset values, every other bit 0, both lines low with no
call made, the access index 0 and no refusal; with the defaults every register reads 0 (70_reset_and_hazards.md R190,
R191; every value is decision D12; log entry 2). -/
def Obligations.ResetStateValues : Prop :=
  (∀ p : Params,
    (State.resetWith p).reg .gpioData = p.resetData1 ∧ (State.resetWith p).reg .gpioTri = p.resetTri1 ∧
    (State.resetWith p).reg .gpio2Data = p.resetData2 ∧ (State.resetWith p).reg .gpio2Tri = p.resetTri2 ∧
    (State.resetWith p).reg .gier = 0 ∧ (State.resetWith p).reg .ipier = 0 ∧ (State.resetWith p).reg .ipisr = 0 ∧
    (State.resetWith p).events = [] ∧ (State.resetWith p).pc = 0 ∧ (State.resetWith p).refused = false ∧
    ∀ c : Channel, ((State.resetWith p).chan c).posted = false ∧ (State.resetWith p).line c = false ∧
      (State.resetWith p).phase c = some .idle) ∧
  ∀ r : Reg, State.reset.reg r = 0
end

