-- ==== Sys2Proof/Laws/Decode.lean ====
section
/-! SUPPORT. Fields of packed descriptors, and the register map in both directions. -/

namespace Sys2Proof

/-- A bit of a packed descriptor, field by field (30_encoding.md R71). -/
theorem Descriptor.toWord_getLsbD (d : Descriptor) (k : Nat) :
    d.toWord.getLsbD k =
      if k < 32 then d.wdata.getLsbD k
      else if k < 36 then d.be.getLsbD (k - 32)
      else if k < 45 then d.off.getLsbD (k - 36)
      else decide (k = 45) && d.write := by
  simp only [Descriptor.toWord, BitVec.getLsbD_append, BitVec.getLsbD_ofBool]
  rw [show k - 32 - 4 = k - 36 by omega, show k - 36 - 9 = k - 45 by omega]
  rcases (by omega : k < 32 ∨ (32 ≤ k ∧ k < 36) ∨ (36 ≤ k ∧ k < 45) ∨ k = 45 ∨ 45 < k) with h | h | h | h | h
  · simp [h]
  · simp [show ¬ k < 32 by omega, h.2, show k - 32 < 4 by omega]
  · simp [show ¬ k < 32 by omega, show ¬ k < 36 by omega, show ¬ k - 32 < 4 by omega, h.2,
      show k - 36 < 9 by omega]
  · simp [h]
  · simp [show ¬ k < 32 by omega, show ¬ k < 36 by omega, show ¬ k - 32 < 4 by omega, show ¬ k < 45 by omega,
      show ¬ k - 36 < 9 by omega, show k - 45 ≠ 0 by omega, show k ≠ 45 by omega]

/-- Packing a descriptor and reading its fields gives it back (30_encoding.md R71). -/
theorem Descriptor.ofWord_toWord (d : Descriptor) : Descriptor.ofWord d.toWord = d := by
  obtain ⟨w, off, be, v⟩ := d
  simp only [Descriptor.ofWord, Descriptor.mk.injEq]
  refine ⟨by rw [Descriptor.toWord_getLsbD]; simp, ?_, ?_, ?_⟩
  all_goals
    apply BitVec.eq_of_getLsbD_eq
    intro k hk
    rw [BitVec.getLsbD_extractLsb', Descriptor.toWord_getLsbD]
    grind

/-- Reading a word's fields and packing them gives it back. -/
theorem Descriptor.toWord_ofWord (w : AccessWord) : (Descriptor.ofWord w).toWord = w := by
  apply BitVec.eq_of_getLsbD_eq
  intro k hk
  rw [Descriptor.toWord_getLsbD]
  simp only [Descriptor.ofWord, BitVec.getLsbD_extractLsb']
  rcases (by omega : k < 32 ∨ (32 ≤ k ∧ k < 36) ∨ (36 ≤ k ∧ k < 45) ∨ k = 45) with h | h | h | h
  · simp [h]
  · simp [show ¬ k < 32 by omega, h.2, show k - 32 < 4 by omega, show 32 + (k - 32) = k by omega]
  · simp [show ¬ k < 32 by omega, show ¬ k < 36 by omega, h.2, show k - 36 < 9 by omega,
      show 36 + (k - 36) = k by omega]
  · subst h; rfl

/-- The map finds every register at its offset (20_memory.md R50). -/
@[simp] theorem regAt_offset (r : Reg) : regAt r.offset = some r := by
  cases r <;> rfl

/-- The map finds a register at no other offset. -/
theorem offset_of_regAt {off : Offset} {r : Reg} (h : regAt off = some r) : off = r.offset := by
  unfold regAt at h
  split at h <;> simp at h <;> subst h <;> apply BitVec.eq_of_toNat_eq <;> assumption

end Sys2Proof
end

