-- ==== Sys2Proof/Laws/Flags.lean ====
section
/-! SUPPORT. What a toggle and an acknowledge do to a channel's fields, the calls they make, and the phases read as
field values. -/

namespace Sys2Proof.Machine

open Sys2Proof

/-! ### A 1 written to a status bit (41_interrupt_registers.md R111) -/

@[simp] theorem ChannelState.toggled_data (x : ChannelState) : x.toggled.data = x.data := by
  unfold ChannelState.toggled; split <;> rfl
@[simp] theorem ChannelState.toggled_tri (x : ChannelState) : x.toggled.tri = x.tri := by
  unfold ChannelState.toggled; split <;> rfl
@[simp] theorem ChannelState.toggled_ier (x : ChannelState) : x.toggled.ier = x.ier := by
  unfold ChannelState.toggled; split <;> rfl
@[simp] theorem ChannelState.toggled_isr (x : ChannelState) : x.toggled.isr = !x.isr := by
  unfold ChannelState.toggled; split <;> simp_all
@[simp] theorem ChannelState.toggled_posted (x : ChannelState) : x.toggled.posted = (x.posted || !x.isr) := by
  unfold ChannelState.toggled; split <;> simp_all

/-! ### A read of the data register (42_channel_registers.md R131) -/

@[simp] theorem ChannelState.acknowledged_data (x : ChannelState) : x.acknowledged.data = x.data := by
  unfold ChannelState.acknowledged; split <;> rfl
@[simp] theorem ChannelState.acknowledged_tri (x : ChannelState) : x.acknowledged.tri = x.tri := by
  unfold ChannelState.acknowledged; split <;> rfl
@[simp] theorem ChannelState.acknowledged_ier (x : ChannelState) : x.acknowledged.ier = x.ier := by
  unfold ChannelState.acknowledged; split <;> rfl
@[simp] theorem ChannelState.acknowledged_isr (x : ChannelState) : x.acknowledged.isr = false := by
  unfold ChannelState.acknowledged; split <;> simp_all
@[simp] theorem ChannelState.acknowledged_posted (x : ChannelState) :
    x.acknowledged.posted = (x.posted && !x.isr) := by
  unfold ChannelState.acknowledged; split <;> simp_all

/-! ### The calls on one target -/

theorem targetOf_injective {c d : Channel} (h : targetOf c = targetOf d) : c = d := by
  cases c <;> cases d <;> first | rfl | simp [targetOf] at h

/-- The calls on a target over a longer log are the calls on it over the two parts. -/
@[simp] theorem callsOn_append (a b : List Event) (t : Target) : callsOn (a ++ b) t = callsOn a t ++ callsOn b t := by
  simp [callsOn]

/-- The calls made on a channel's target are recorded on that target alone. -/
theorem callsOn_calls (c d : Channel) (k : List Call) :
    callsOn (k.map (fun a => { target := targetOf c, call := a })) (targetOf d) = if c = d then k else [] := by
  induction k with
  | nil => simp [callsOn]
  | cons a k ih =>
    by_cases h : c = d
    · subst h
      simpa [callsOn] using ih
    · have ht : targetOf c ≠ targetOf d := fun e => h (targetOf_injective e)
      simp_all [callsOn]

/-- A line's level is read from the calls on its target alone (10_state.md R37). -/
theorem level_eq_calls (log : List Event) (t : Target) :
    level log t = match (callsOn log t).getLast? with
      | some k => decide (k = .raise)
      | none => false := by
  unfold level callsOn
  rw [List.getLast?_map]
  cases (log.filter fun e => e.target = t).getLast? <;> rfl

/-! ### The phases (60_exceptions.md R166) -/

theorem phaseOf_eq_idle (i p l : Bool) : phaseOf i p l = some .idle ↔ i = false ∧ p = false ∧ l = false := by
  cases i <;> cases p <;> cases l <;> simp [phaseOf]
theorem phaseOf_eq_pending (i p l : Bool) : phaseOf i p l = some .pending ↔ i = true ∧ p = true ∧ l = true := by
  cases i <;> cases p <;> cases l <;> simp [phaseOf]
theorem phaseOf_eq_stale (i p l : Bool) : phaseOf i p l = some .stale ↔ i = false ∧ p = true ∧ l = true := by
  cases i <;> cases p <;> cases l <;> simp [phaseOf]

end Sys2Proof.Machine
end

