-- ==== Sys2Proof/Laws/Operands.lean ====
section
/-! SUPPORT. What the operand forms of Machine/Operands.lean give, bit by bit. -/

namespace Sys2Proof.Machine

open Sys2Proof

/-- A masked write takes the new bit under the mask and keeps the old one elsewhere (40_access_common.md R90). -/
theorem merge_getLsbD (m old new : Word) (k : Nat) :
    (merge m old new).getLsbD k = if m.getLsbD k then new.getLsbD k else old.getLsbD k := by
  simp only [merge, BitVec.getLsbD_or, BitVec.getLsbD_and, BitVec.getLsbD_not]
  by_cases h : k < 32
  · cases m.getLsbD k <;> simp [h]
  · simp only [BitVec.getLsbD_of_ge _ _ (Nat.le_of_not_lt h)]
    simp

/-- The bits a data write may store are the selected output bits. -/
theorem outputMask_getLsbD (be : ByteEnable) (tri : Word) {k : Nat} (h : k < 32) :
    (outputMask be tri).getLsbD k = ((bemask be).getLsbD k && !tri.getLsbD k) := by
  simp [outputMask, h]

/-- Under `LANE_GATED` a field is written exactly when its lane is selected (40_access_common.md R94). -/
@[simp] theorem laneValue_laneGated (stored : Word) (lane : Nat) (be : ByteEnable) (v : Word) :
    laneValue .laneGated stored lane be v = if be.getLsbD lane then some v else none := rfl

/-- Under `MERGED` the handler always gets the merged value (40_access_common.md R94). -/
@[simp] theorem laneValue_merged (stored : Word) (lane : Nat) (be : ByteEnable) (v : Word) :
    laneValue .merged stored lane be v = some (merge (bemask be) stored v) := rfl

/-- The bits of a two-field register: the fields at 0 and 1, and 0 above (10_state.md R29, R31). -/
theorem pairValue_bits (b0 b1 : Bool) :
    (pairValue b0 b1).getLsbD 0 = b0 ∧ (pairValue b0 b1).getLsbD 1 = b1 := by
  cases b0 <;> cases b1 <;> decide

/-- The field of a one-field register is bit 31 (10_state.md R27). -/
theorem topBitValue_bit31 (b : Bool) : (topBitValue b).getLsbD 31 = b := by
  cases b <;> decide

/-- A pin update takes the draw's bit where the tri-state bit is 1 (42_channel_registers.md R146). -/
theorem pinWrite_getLsbD (tri old p : Word) (k : Nat) :
    (pinWrite tri old p).getLsbD k = if tri.getLsbD k then p.getLsbD k else old.getLsbD k :=
  merge_getLsbD tri old p k

end Sys2Proof.Machine
end

