-- ==== Sys2Proof/Laws/State.lean ====
section
/-! SUPPORT. One lemma per field of State per update of Machine/Ops.lean, true by rfl, so that no proof unfolds a record
update. -/

namespace Sys2Proof.Machine

open Sys2Proof


/-! ### chan -/

@[simp] theorem State.chan_ch1 (s : State) : s.chan .ch1 = s.ch1 := rfl
@[simp] theorem State.chan_ch2 (s : State) : s.chan .ch2 = s.ch2 := rfl

/-! ### setChan -/

@[simp] theorem State.setChan_params (s : State) (c : Channel) (x : ChannelState) :
    (s.setChan c x).params = s.params := by
  cases c <;> rfl
@[simp] theorem State.setChan_gie (s : State) (c : Channel) (x : ChannelState) :
    (s.setChan c x).gie = s.gie := by
  cases c <;> rfl
@[simp] theorem State.setChan_events (s : State) (c : Channel) (x : ChannelState) :
    (s.setChan c x).events = s.events := by
  cases c <;> rfl
@[simp] theorem State.setChan_pc (s : State) (c : Channel) (x : ChannelState) :
    (s.setChan c x).pc = s.pc := by
  cases c <;> rfl
@[simp] theorem State.setChan_refused (s : State) (c : Channel) (x : ChannelState) :
    (s.setChan c x).refused = s.refused := by
  cases c <;> rfl
@[simp] theorem State.setChan_result (s : State) (c : Channel) (x : ChannelState) :
    (s.setChan c x).result = s.result := by
  cases c <;> rfl
@[simp] theorem State.setChan_input (s : State) (c : Channel) (x : ChannelState) :
    (s.setChan c x).input = s.input := by
  cases c <;> rfl
@[simp] theorem State.setChan_ch1_ch1 (s : State) (x : ChannelState) : (s.setChan .ch1 x).ch1 = x := rfl
@[simp] theorem State.setChan_ch1_ch2 (s : State) (x : ChannelState) : (s.setChan .ch1 x).ch2 = s.ch2 := rfl
@[simp] theorem State.setChan_ch2_ch1 (s : State) (x : ChannelState) : (s.setChan .ch2 x).ch1 = s.ch1 := rfl
@[simp] theorem State.setChan_ch2_ch2 (s : State) (x : ChannelState) : (s.setChan .ch2 x).ch2 = x := rfl
@[simp] theorem State.chan_setChan_self (s : State) (c : Channel) (x : ChannelState) :
    (s.setChan c x).chan c = x := by
  cases c <;> rfl
theorem State.chan_setChan_ne (s : State) {c d : Channel} (h : d ≠ c) (x : ChannelState) :
    (s.setChan c x).chan d = s.chan d := by
  cases c <;> cases d <;> first | rfl | exact absurd rfl h

/-! ### setGie -/

@[simp] theorem State.setGie_params (s : State) (b : Bool) : (s.setGie b).params = s.params := rfl
@[simp] theorem State.setGie_ch1 (s : State) (b : Bool) : (s.setGie b).ch1 = s.ch1 := rfl
@[simp] theorem State.setGie_ch2 (s : State) (b : Bool) : (s.setGie b).ch2 = s.ch2 := rfl
@[simp] theorem State.setGie_gie (s : State) (b : Bool) : (s.setGie b).gie = b := rfl
@[simp] theorem State.setGie_events (s : State) (b : Bool) : (s.setGie b).events = s.events := rfl
@[simp] theorem State.setGie_pc (s : State) (b : Bool) : (s.setGie b).pc = s.pc := rfl
@[simp] theorem State.setGie_refused (s : State) (b : Bool) : (s.setGie b).refused = s.refused := rfl
@[simp] theorem State.setGie_result (s : State) (b : Bool) : (s.setGie b).result = s.result := rfl
@[simp] theorem State.setGie_input (s : State) (b : Bool) : (s.setGie b).input = s.input := rfl
@[simp] theorem State.setGie_chan (s : State) (b : Bool) (d : Channel) :
    (s.setGie b).chan d = s.chan d := by
  cases d <;> rfl

/-! ### setIer -/

@[simp] theorem State.setIer_params (s : State) (b1 b2 : Bool) : (s.setIer b1 b2).params = s.params := rfl
@[simp] theorem State.setIer_ch1 (s : State) (b1 b2 : Bool) : (s.setIer b1 b2).ch1 = { s.ch1 with ier := b1 } := rfl
@[simp] theorem State.setIer_ch2 (s : State) (b1 b2 : Bool) : (s.setIer b1 b2).ch2 = { s.ch2 with ier := b2 } := rfl
@[simp] theorem State.setIer_gie (s : State) (b1 b2 : Bool) : (s.setIer b1 b2).gie = s.gie := rfl
@[simp] theorem State.setIer_events (s : State) (b1 b2 : Bool) : (s.setIer b1 b2).events = s.events := rfl
@[simp] theorem State.setIer_pc (s : State) (b1 b2 : Bool) : (s.setIer b1 b2).pc = s.pc := rfl
@[simp] theorem State.setIer_refused (s : State) (b1 b2 : Bool) : (s.setIer b1 b2).refused = s.refused := rfl
@[simp] theorem State.setIer_result (s : State) (b1 b2 : Bool) : (s.setIer b1 b2).result = s.result := rfl
@[simp] theorem State.setIer_input (s : State) (b1 b2 : Bool) : (s.setIer b1 b2).input = s.input := rfl

/-! ### signal -/

@[simp] theorem State.signal_params (s : State) (c : Channel) (k : List Call) :
    (s.signal c k).params = s.params := rfl
@[simp] theorem State.signal_ch1 (s : State) (c : Channel) (k : List Call) : (s.signal c k).ch1 = s.ch1 := rfl
@[simp] theorem State.signal_ch2 (s : State) (c : Channel) (k : List Call) : (s.signal c k).ch2 = s.ch2 := rfl
@[simp] theorem State.signal_gie (s : State) (c : Channel) (k : List Call) : (s.signal c k).gie = s.gie := rfl
@[simp] theorem State.signal_events (s : State) (c : Channel) (k : List Call) :
    (s.signal c k).events = s.events ++ k.map (fun a => { target := targetOf c, call := a }) := rfl
@[simp] theorem State.signal_pc (s : State) (c : Channel) (k : List Call) : (s.signal c k).pc = s.pc := rfl
@[simp] theorem State.signal_refused (s : State) (c : Channel) (k : List Call) :
    (s.signal c k).refused = s.refused := rfl
@[simp] theorem State.signal_result (s : State) (c : Channel) (k : List Call) :
    (s.signal c k).result = s.result := rfl
@[simp] theorem State.signal_input (s : State) (c : Channel) (k : List Call) : (s.signal c k).input = s.input := rfl
@[simp] theorem State.signal_chan (s : State) (c : Channel) (k : List Call) (d : Channel) :
    (s.signal c k).chan d = s.chan d := by
  cases d <;> rfl

/-! ### complete -/

@[simp] theorem State.complete_params (s : State) (r : Result) : (s.complete r).params = s.params := rfl
@[simp] theorem State.complete_ch1 (s : State) (r : Result) : (s.complete r).ch1 = s.ch1 := rfl
@[simp] theorem State.complete_ch2 (s : State) (r : Result) : (s.complete r).ch2 = s.ch2 := rfl
@[simp] theorem State.complete_gie (s : State) (r : Result) : (s.complete r).gie = s.gie := rfl
@[simp] theorem State.complete_events (s : State) (r : Result) : (s.complete r).events = s.events := rfl
@[simp] theorem State.complete_pc (s : State) (r : Result) : (s.complete r).pc = s.pc + 1 := rfl
@[simp] theorem State.complete_refused (s : State) (r : Result) : (s.complete r).refused = s.refused := rfl
@[simp] theorem State.complete_result (s : State) (r : Result) : (s.complete r).result = r := rfl
@[simp] theorem State.complete_input (s : State) (r : Result) : (s.complete r).input = s.input := rfl
@[simp] theorem State.complete_chan (s : State) (r : Result) (d : Channel) :
    (s.complete r).chan d = s.chan d := by
  cases d <;> rfl

/-! ### refuse -/

@[simp] theorem State.refuse_params (s : State) (r : RefuseReason) : (s.refuse r).params = s.params := rfl
@[simp] theorem State.refuse_ch1 (s : State) (r : RefuseReason) : (s.refuse r).ch1 = s.ch1 := rfl
@[simp] theorem State.refuse_ch2 (s : State) (r : RefuseReason) : (s.refuse r).ch2 = s.ch2 := rfl
@[simp] theorem State.refuse_gie (s : State) (r : RefuseReason) : (s.refuse r).gie = s.gie := rfl
@[simp] theorem State.refuse_events (s : State) (r : RefuseReason) : (s.refuse r).events = s.events := rfl
@[simp] theorem State.refuse_pc (s : State) (r : RefuseReason) : (s.refuse r).pc = s.pc := rfl
@[simp] theorem State.refuse_refused (s : State) (r : RefuseReason) : (s.refuse r).refused = true := rfl
@[simp] theorem State.refuse_result (s : State) (r : RefuseReason) : (s.refuse r).result = .refused r := rfl
@[simp] theorem State.refuse_input (s : State) (r : RefuseReason) : (s.refuse r).input = s.input := rfl
@[simp] theorem State.refuse_chan (s : State) (r : RefuseReason) (d : Channel) :
    (s.refuse r).chan d = s.chan d := by
  cases d <;> rfl

/-! ### setData and setTri -/

@[simp] theorem State.setData_params (s : State) (c : Channel) (v : Word) :
    (s.setData c v).params = s.params := by
  cases c <;> rfl
@[simp] theorem State.setData_gie (s : State) (c : Channel) (v : Word) :
    (s.setData c v).gie = s.gie := by
  cases c <;> rfl
@[simp] theorem State.setData_events (s : State) (c : Channel) (v : Word) :
    (s.setData c v).events = s.events := by
  cases c <;> rfl
@[simp] theorem State.setData_pc (s : State) (c : Channel) (v : Word) :
    (s.setData c v).pc = s.pc := by
  cases c <;> rfl
@[simp] theorem State.setData_refused (s : State) (c : Channel) (v : Word) :
    (s.setData c v).refused = s.refused := by
  cases c <;> rfl
@[simp] theorem State.setData_result (s : State) (c : Channel) (v : Word) :
    (s.setData c v).result = s.result := by
  cases c <;> rfl
@[simp] theorem State.setData_input (s : State) (c : Channel) (v : Word) :
    (s.setData c v).input = s.input := by
  cases c <;> rfl
@[simp] theorem State.chan_setData_self (s : State) (c : Channel) (v : Word) :
    (s.setData c v).chan c = { s.chan c with data := v } := by
  cases c <;> rfl
theorem State.chan_setData_ne (s : State) {c d : Channel} (h : d ≠ c) (v : Word) : (s.setData c v).chan d = s.chan d :=
  s.chan_setChan_ne h _
@[simp] theorem State.setTri_params (s : State) (c : Channel) (v : Word) :
    (s.setTri c v).params = s.params := by
  cases c <;> rfl
@[simp] theorem State.setTri_gie (s : State) (c : Channel) (v : Word) :
    (s.setTri c v).gie = s.gie := by
  cases c <;> rfl
@[simp] theorem State.setTri_events (s : State) (c : Channel) (v : Word) :
    (s.setTri c v).events = s.events := by
  cases c <;> rfl
@[simp] theorem State.setTri_pc (s : State) (c : Channel) (v : Word) :
    (s.setTri c v).pc = s.pc := by
  cases c <;> rfl
@[simp] theorem State.setTri_refused (s : State) (c : Channel) (v : Word) :
    (s.setTri c v).refused = s.refused := by
  cases c <;> rfl
@[simp] theorem State.setTri_result (s : State) (c : Channel) (v : Word) :
    (s.setTri c v).result = s.result := by
  cases c <;> rfl
@[simp] theorem State.setTri_input (s : State) (c : Channel) (v : Word) :
    (s.setTri c v).input = s.input := by
  cases c <;> rfl
@[simp] theorem State.chan_setTri_self (s : State) (c : Channel) (v : Word) :
    (s.setTri c v).chan c = { s.chan c with tri := v } := by
  cases c <;> rfl
theorem State.chan_setTri_ne (s : State) {c d : Channel} (h : d ≠ c) (v : Word) : (s.setTri c v).chan d = s.chan d :=
  s.chan_setChan_ne h _

/-! ### reads of a register and of a line -/

/-- Two states with the same channels and the same `GIE` read alike. -/
theorem State.reg_congr {s t : State} (h1 : t.ch1 = s.ch1) (h2 : t.ch2 = s.ch2) (hg : t.gie = s.gie) (r : Reg) :
    t.reg r = s.reg r := by
  cases r <;> simp only [State.reg, h1, h2, hg]

@[simp] theorem State.complete_reg (s : State) (r : Result) (q : Reg) : (s.complete r).reg q = s.reg q :=
  State.reg_congr rfl rfl rfl q
@[simp] theorem State.refuse_reg (s : State) (r : RefuseReason) (q : Reg) : (s.refuse r).reg q = s.reg q :=
  State.reg_congr rfl rfl rfl q
@[simp] theorem State.signal_reg (s : State) (c : Channel) (k : List Call) (q : Reg) : (s.signal c k).reg q = s.reg q :=
  State.reg_congr rfl rfl rfl q

/-- Two states with the same log have the same line levels. -/
theorem State.line_congr {s t : State} (h : t.events = s.events) (c : Channel) : t.line c = s.line c := by
  simp only [State.line, h]

end Sys2Proof.Machine
end

