-- ==== Sys2Proof/Laws/Ops.lean ====
section
/-! SUPPORT. One lemma per shared operation of Machine/Ops.lean that says everything it can do, and what the operation
leaves alone. -/

namespace Sys2Proof.Machine

open Sys2Proof

/-- A write to a channel changes no field outside the two channels. -/
theorem State.setChan_eq (s : State) (c : Channel) (x : ChannelState) :
    s.setChan c x = { s with
      ch1 := if c = .ch1 then x else s.ch1
      ch2 := if c = .ch2 then x else s.ch2 } := by
  cases c <;> rfl

/-- A signal adds the calls to its own target's record and to no other. -/
theorem State.callsOn_signal (s : State) (c d : Channel) (k : List Call) :
    callsOn (s.signal c k).events (targetOf d) =
      callsOn s.events (targetOf d) ++ if c = d then k else [] := by
  rw [State.signal_events, callsOn_append, callsOn_calls]

/-- Everything a toggle does: its own channel's status bit and flag, and its own target's record. -/
theorem State.toggleStatus_spec (s : State) (c : Channel) :
    (s.toggleStatus c).chan c = (s.chan c).toggled ∧
    (∀ d, d ≠ c → (s.toggleStatus c).chan d = s.chan d) ∧
    (∀ d, callsOn (s.toggleStatus c).events (targetOf d) =
      callsOn s.events (targetOf d) ++ if c = d then (s.chan c).toggleCalls else []) ∧
    (s.toggleStatus c).params = s.params ∧ (s.toggleStatus c).gie = s.gie ∧ (s.toggleStatus c).pc = s.pc ∧
    (s.toggleStatus c).refused = s.refused ∧ (s.toggleStatus c).result = s.result ∧
    (s.toggleStatus c).input = s.input := by
  refine ⟨by simp [State.toggleStatus], fun d h => ?_, fun d => ?_, ?_⟩
  · rw [State.toggleStatus, State.chan_setChan_ne _ h, State.signal_chan]
  · rw [State.toggleStatus, State.setChan_events, State.callsOn_signal]
  · simp [State.toggleStatus]

/-- Everything an acknowledge does: its own channel's status bit and flag, and its own target's record. -/
theorem State.acknowledge_spec (s : State) (c : Channel) :
    (s.acknowledge c).chan c = (s.chan c).acknowledged ∧
    (∀ d, d ≠ c → (s.acknowledge c).chan d = s.chan d) ∧
    (∀ d, callsOn (s.acknowledge c).events (targetOf d) =
      callsOn s.events (targetOf d) ++ if c = d then (s.chan c).acknowledgeCalls else []) ∧
    (s.acknowledge c).params = s.params ∧ (s.acknowledge c).gie = s.gie ∧ (s.acknowledge c).pc = s.pc ∧
    (s.acknowledge c).refused = s.refused ∧ (s.acknowledge c).result = s.result ∧
    (s.acknowledge c).input = s.input := by
  refine ⟨by simp [State.acknowledge], fun d h => ?_, fun d => ?_, ?_⟩
  · rw [State.acknowledge, State.chan_setChan_ne _ h, State.signal_chan]
  · rw [State.acknowledge, State.setChan_events, State.callsOn_signal]
  · simp [State.acknowledge]

/-- What an interrupt-register write works on: nothing under `LANE_GATED` with the lane not selected, else the written
value or the merged one (40_access_common.md R94). -/
theorem State.laneValueOf_cases (s : State) (r : Reg) (lane : Nat) (be : ByteEnable) (v : Word) :
    (s.params.ctrlWriteMode = .laneGated ∧ be.getLsbD lane = false ∧ s.laneValueOf r lane be v = none) ∨
    (s.params.ctrlWriteMode = .laneGated ∧ be.getLsbD lane = true ∧ s.laneValueOf r lane be v = some v) ∨
    (s.params.ctrlWriteMode = .merged ∧ s.laneValueOf r lane be v = some (merge (bemask be) (s.reg r) v)) := by
  unfold State.laneValueOf
  cases hm : s.params.ctrlWriteMode <;> cases hb : be.getLsbD lane <;> simp only [laneValue] <;> simp [hb]

/-- The merge under a mask sees the written bit where the bit's lane is selected, for the three bits that are fields of
interrupt registers (40_access_common.md R93). -/
theorem merged_field_bits (be : ByteEnable) (old v : Word) :
    (merge (bemask be) old v).getLsbD 0 = (if be.getLsbD 0 then v.getLsbD 0 else old.getLsbD 0) ∧
    (merge (bemask be) old v).getLsbD 1 = (if be.getLsbD 0 then v.getLsbD 1 else old.getLsbD 1) ∧
    (merge (bemask be) old v).getLsbD 31 = (if be.getLsbD 3 then v.getLsbD 31 else old.getLsbD 31) := by
  have h : ∀ b : ByteEnable, (bemask b).getLsbD 0 = b.getLsbD 0 ∧ (bemask b).getLsbD 1 = b.getLsbD 0 ∧
      (bemask b).getLsbD 31 = b.getLsbD 3 := by decide
  simp only [merge_getLsbD, h be, and_self]

/-- Taking an input: none with an empty list, else its first item. -/
@[simp] theorem State.takeInput_nil {s : State} (h : s.input = []) : s.takeInput = none := by
  simp [State.takeInput, h]
@[simp] theorem State.takeInput_cons {s : State} {x : Input} {rest : List Input} (h : s.input = x :: rest) :
    s.takeInput = some (x, { s with input := rest }) := by
  simp [State.takeInput, h]

end Sys2Proof.Machine
end

