-- ==== Sys2Proof/Laws/Exec.lean ====
section
/-! SUPPORT. What each access and each step can do, said once: the state an access leaves, as a term over the shared
operations, and the inversion of a step. -/

namespace Sys2Proof.Machine

open Sys2Proof

/-! ### One lemma per access with no choice in it -/

@[simp] theorem exec_rdGpioData (be : ByteEnable) (s : State) :
    exec (.rdGpioData be) s = .next ((s.acknowledge .ch1).finishRead .gpioData be) := rfl
@[simp] theorem exec_rdGpio2Data (be : ByteEnable) (s : State) :
    exec (.rdGpio2Data be) s = .next ((s.acknowledge .ch2).finishRead .gpio2Data be) := rfl
@[simp] theorem exec_wrGpioData (be : ByteEnable) (v : Word) (s : State) :
    exec (.wrGpioData be v) s = .next ((s.writeData .ch1 be v).complete .written) := rfl
@[simp] theorem exec_wrGpio2Data (be : ByteEnable) (v : Word) (s : State) :
    exec (.wrGpio2Data be v) s = .next ((s.writeData .ch2 be v).complete .written) := rfl
@[simp] theorem exec_rdGpioTri (be : ByteEnable) (s : State) :
    exec (.rdGpioTri be) s = .next (s.finishRead .gpioTri be) := rfl
@[simp] theorem exec_rdGpio2Tri (be : ByteEnable) (s : State) :
    exec (.rdGpio2Tri be) s = .next (s.finishRead .gpio2Tri be) := rfl
@[simp] theorem exec_wrGpioTri (be : ByteEnable) (v : Word) (s : State) :
    exec (.wrGpioTri be v) s = .next ((s.writeTri .ch1 be v).complete .written) := rfl
@[simp] theorem exec_wrGpio2Tri (be : ByteEnable) (v : Word) (s : State) :
    exec (.wrGpio2Tri be v) s = .next ((s.writeTri .ch2 be v).complete .written) := rfl
@[simp] theorem exec_rdGier (be : ByteEnable) (s : State) :
    exec (.rdGier be) s = .next (s.finishRead .gier be) := rfl
@[simp] theorem exec_rdIpisr (be : ByteEnable) (s : State) :
    exec (.rdIpisr be) s = .next (s.finishRead .ipisr be) := rfl
@[simp] theorem exec_rdIpier (be : ByteEnable) (s : State) :
    exec (.rdIpier be) s = .next (s.finishRead .ipier be) := rfl

/-! ### One lemma per write that asks `lane_value` -/

theorem exec_wrGier_none {be : ByteEnable} {v : Word} {s : State} (h : s.laneValueOf .gier 3 be v = none) :
    exec (.wrGier be v) s = .next (s.complete .written) := by
  simp [exec, execWrGier, h]
theorem exec_wrGier_some {be : ByteEnable} {v u : Word} {s : State} (h : s.laneValueOf .gier 3 be v = some u) :
    exec (.wrGier be v) s = .next ((s.setGie (u.getLsbD 31)).complete .written) := by
  simp [exec, execWrGier, h]
theorem exec_wrIpier_none {be : ByteEnable} {v : Word} {s : State} (h : s.laneValueOf .ipier 0 be v = none) :
    exec (.wrIpier be v) s = .next (s.complete .written) := by
  simp [exec, execWrIpier, h]
theorem exec_wrIpier_some {be : ByteEnable} {v u : Word} {s : State} (h : s.laneValueOf .ipier 0 be v = some u) :
    exec (.wrIpier be v) s = .next ((s.setIer (u.getLsbD 0) (u.getLsbD 1)).complete .written) := by
  simp [exec, execWrIpier, h]
theorem exec_wrIpisr_none {be : ByteEnable} {v : Word} {s : State} (h : s.laneValueOf .ipisr 0 be v = none) :
    exec (.wrIpisr be v) s = .next (s.complete .written) := by
  simp [exec, execWrIpisr, h]
theorem exec_wrIpisr_some {be : ByteEnable} {v u : Word} {s : State} (h : s.laneValueOf .ipisr 0 be v = some u) :
    exec (.wrIpisr be v) s =
      .next (((s.toggleIf .ch1 (u.getLsbD 0)).toggleIf .ch2 (u.getLsbD 1)).complete .written) := by
  simp [exec, execWrIpisr, h]

/-! ### The step -/

/-- Everything a host access can do (30_encoding.md R77). -/
theorem accessStep_cases {w : AccessWord} {s : State} {o : Host.Outcome State Fault Refusal}
    (h : accessStep w s = o) :
    (∃ i, decode w = .ok i ∧ o = exec i s) ∨
    (decode w = .error .misaligned ∧ o = .next (s.refuse .misaligned)) ∨
    (decode w = .error .unmapped ∧ s.params.unmappedPolicy = .refuse ∧ o = .next (s.refuse .unmapped)) ∨
    (decode w = .error .unmapped ∧ s.params.unmappedPolicy = .razWi ∧
      o = .next (s.complete (if w.getLsbD 45 then .written else .rdata 0))) := by
  subst h
  unfold accessStep
  split
  · next i hd => exact .inl ⟨i, hd, rfl⟩
  · next hd => exact .inr (.inl ⟨hd, rfl⟩)
  · next hd =>
    unfold unmappedAccess
    split
    · next hp => exact .inr (.inr (.inl ⟨hd, hp, rfl⟩))
    · next hp => exact .inr (.inr (.inr ⟨hd, hp, rfl⟩))

/-- A host access and a bus access are performed as the descriptor they stand for (20_memory.md R56). -/
theorem perform_of_accessWord {x : Input} {w : AccessWord} {s : State}
    (h : accessWordOf s.params.busByteOrder x = some w) : perform x s = accessStep w s := by
  cases x <;> simp [accessWordOf] at h <;> subst h <;> rfl

/-- Everything a step can do: idle, perform the first input's descriptor, or update pins. -/
theorem step_cases (s : State) :
    (s.input = [] ∧ step s = .next s) ∨
    (∃ x rest w, s.input = x :: rest ∧ accessWordOf s.params.busByteOrder x = some w ∧
      step s = accessStep w { s with input := rest }) ∨
    (∃ c p rest, s.input = .pin c p :: rest ∧ step s = pinStep c p { s with input := rest }) := by
  unfold step
  cases h : s.input with
  | nil => exact .inl ⟨rfl, by simp [State.takeInput, h, idleStep]⟩
  | cons x rest =>
    simp only [State.takeInput, h]
    cases x with
    | access w => exact .inr (.inl ⟨_, rest, w, rfl, rfl, rfl⟩)
    | bus b => exact .inr (.inl ⟨_, rest, _, rfl, rfl, rfl⟩)
    | pin c p => exact .inr (.inr ⟨c, p, rest, rfl, rfl⟩)

/-- A pin update answers a next state under `INPUT_BITS` alone (42_channel_registers.md R146). -/
theorem pinStep_next {c : Channel} {p : Word} {s t : State} (h : pinStep c p s = .next t) :
    s.params.extPinUpdate = .inputBits ∧ t = s.pinUpdate c p := by
  unfold pinStep at h
  split at h
  · next hp => exact ⟨hp, by simpa using h.symm⟩
  · simp at h

end Sys2Proof.Machine
end

