-- ==== Sys2Proof/Laws/PerInstr.lean ====
section
/-! SUPPORT. The per-access family `OpcodeRow`: an access's word, under the opcode table's mask, is its row's
match. -/

namespace Sys2Proof.Laws.OpcodeRow

open Sys2Proof

/-- The `match` column of spec/opcode_table.json. -/
def matchOf : Instr → AccessWord
  | .rdGpioData _ => 0x000000000000
  | .wrGpioData _ _ => 0x200000000000
  | .rdGpioTri _ => 0x004000000000
  | .wrGpioTri _ _ => 0x204000000000
  | .rdGpio2Data _ => 0x008000000000
  | .wrGpio2Data _ _ => 0x208000000000
  | .rdGpio2Tri _ => 0x00C000000000
  | .wrGpio2Tri _ _ => 0x20C000000000
  | .rdGier _ => 0x11C000000000
  | .wrGier _ _ => 0x31C000000000
  | .rdIpisr _ => 0x120000000000
  | .wrIpisr _ _ => 0x320000000000
  | .rdIpier _ => 0x128000000000
  | .wrIpier _ _ => 0x328000000000

/-- The word of an access matches its row of the opcode table (30_encoding.md R73: mask 0x3FF000000000). -/
def Statement (i : Instr) : Prop :=
  encode i &&& 0x3FF000000000 = matchOf i

/-- A packed descriptor under the key mask, whatever its operands. -/
theorem toWord_and_keyMask (d : Descriptor) :
    d.toWord &&& 0x3FF000000000 = ({ d with be := 0, wdata := 0 } : Descriptor).toWord := by
  apply BitVec.eq_of_getLsbD_eq
  intro k hk
  have hm : ∀ j, j < 46 → (0x3FF000000000 : AccessWord).getLsbD j = decide (36 ≤ j) := by decide
  rw [BitVec.getLsbD_and, Descriptor.toWord_getLsbD, Descriptor.toWord_getLsbD, hm k hk]
  by_cases h : 36 ≤ k
  · simp [h, show ¬ k < 32 by omega, show ¬ k < 36 by omega]
  · by_cases h2 : k < 32 <;> simp [h, h2, show k < 36 by omega]

/-- An access's row, from its kind, its offset and its row's match. -/
theorem of_fields {i : Instr} (w : Bool) (off : Offset) (m : AccessWord) (hw : i.descriptor.write = w)
    (ho : i.descriptor.off = off) (hm : matchOf i = m) (h : (Descriptor.mk w off 0 0).toWord = m) : Statement i := by
  subst hw ho hm
  exact (toWord_and_keyMask _).trans h

theorem rdGpioData (be : ByteEnable) : Statement (.rdGpioData be) :=
  of_fields false 0x000 0x000000000000 rfl rfl rfl (by decide)
theorem wrGpioData (be : ByteEnable) (wdata : Word) : Statement (.wrGpioData be wdata) :=
  of_fields true 0x000 0x200000000000 rfl rfl rfl (by decide)
theorem rdGpioTri (be : ByteEnable) : Statement (.rdGpioTri be) :=
  of_fields false 0x004 0x004000000000 rfl rfl rfl (by decide)
theorem wrGpioTri (be : ByteEnable) (wdata : Word) : Statement (.wrGpioTri be wdata) :=
  of_fields true 0x004 0x204000000000 rfl rfl rfl (by decide)
theorem rdGpio2Data (be : ByteEnable) : Statement (.rdGpio2Data be) :=
  of_fields false 0x008 0x008000000000 rfl rfl rfl (by decide)
theorem wrGpio2Data (be : ByteEnable) (wdata : Word) : Statement (.wrGpio2Data be wdata) :=
  of_fields true 0x008 0x208000000000 rfl rfl rfl (by decide)
theorem rdGpio2Tri (be : ByteEnable) : Statement (.rdGpio2Tri be) :=
  of_fields false 0x00C 0x00C000000000 rfl rfl rfl (by decide)
theorem wrGpio2Tri (be : ByteEnable) (wdata : Word) : Statement (.wrGpio2Tri be wdata) :=
  of_fields true 0x00C 0x20C000000000 rfl rfl rfl (by decide)
theorem rdGier (be : ByteEnable) : Statement (.rdGier be) :=
  of_fields false 0x11C 0x11C000000000 rfl rfl rfl (by decide)
theorem wrGier (be : ByteEnable) (wdata : Word) : Statement (.wrGier be wdata) :=
  of_fields true 0x11C 0x31C000000000 rfl rfl rfl (by decide)
theorem rdIpisr (be : ByteEnable) : Statement (.rdIpisr be) :=
  of_fields false 0x120 0x120000000000 rfl rfl rfl (by decide)
theorem wrIpisr (be : ByteEnable) (wdata : Word) : Statement (.wrIpisr be wdata) :=
  of_fields true 0x120 0x320000000000 rfl rfl rfl (by decide)
theorem rdIpier (be : ByteEnable) : Statement (.rdIpier be) :=
  of_fields false 0x128 0x128000000000 rfl rfl rfl (by decide)
theorem wrIpier (be : ByteEnable) (wdata : Word) : Statement (.wrIpier be wdata) :=
  of_fields true 0x128 0x328000000000 rfl rfl rfl (by decide)

end Sys2Proof.Laws.OpcodeRow
end

