-- ==== Sys2Proof/Tests/Slice0.lean ====
section
/-! SUPPORT. Tests: the well-formedness checks, one word per access written out from spec/opcode_table.json, vectors of
spec/95_test_vectors.md (each one access or one step), and for every statement with hypotheses a state that meets them.
Expected values are the spec's, not the model's. -/

namespace Sys2Proof.Tests

open Sys2Proof Sys2Proof.Machine

/-! ### Well-formedness: one ill-formed descriptor per check -/

/-- 95_test_vectors.md 2.2: offset 0x002 is not word-aligned. -/
theorem test_wellFormed_refuses_misaligned : (memRead 0x002 0xF).isAligned = false := by decide
/-- 95_test_vectors.md 2.2: offset 0x124 is in no row of the map. -/
theorem test_wellFormed_refuses_unmapped : (memWrite 0x124 0xF 0).isMapped = false := by decide
/-- Both checks are in the descriptor's. -/
theorem test_wellFormed_needs_both :
    (memRead 0x002 0xF).wellFormed = false ∧ (memWrite 0x124 0xF 0).wellFormed = false ∧
    (memRead 0x128 0x0).wellFormed = true := by decide
/-- No access is ill-formed (30_encoding.md R79: every mask and every value is legal). -/
theorem test_wellFormed_any_operand : (Instr.wrIpisr 0x0 0xFFFFFFFF).wellFormed = true := by decide

/-! ### Decoding: one word per row of spec/opcode_table.json, key, BE and WDATA bit by bit -/

/-- `RD_GPIO_DATA`: 0000000000bbbb… -/
theorem test_decode_rdGpioData :
    decode (0b0000000000#10 ++ 0b1010#4 ++ 0b10000000000000000000000000110110#32) = .ok (.rdGpioData 0b1010) := by decide
/-- `WR_GPIO_DATA`: 1000000000bbbb… -/
theorem test_decode_wrGpioData :
    decode (0b1000000000#10 ++ 0b0011#4 ++ 0b10000000000000000000000000110110#32) = .ok (.wrGpioData 0b0011 0b10000000000000000000000000110110) := by decide
/-- `RD_GPIO_TRI`: 0000000100bbbb… -/
theorem test_decode_rdGpioTri :
    decode (0b0000000100#10 ++ 0b0100#4 ++ 0b10000000000000000000000000110110#32) = .ok (.rdGpioTri 0b0100) := by decide
/-- `WR_GPIO_TRI`: 1000000100bbbb… -/
theorem test_decode_wrGpioTri :
    decode (0b1000000100#10 ++ 0b1111#4 ++ 0b10000000000000000000000000110110#32) = .ok (.wrGpioTri 0b1111 0b10000000000000000000000000110110) := by decide
/-- `RD_GPIO2_DATA`: 0000001000bbbb… -/
theorem test_decode_rdGpio2Data :
    decode (0b0000001000#10 ++ 0b0000#4 ++ 0b10000000000000000000000000110110#32) = .ok (.rdGpio2Data 0b0000) := by decide
/-- `WR_GPIO2_DATA`: 1000001000bbbb… -/
theorem test_decode_wrGpio2Data :
    decode (0b1000001000#10 ++ 0b1001#4 ++ 0b10000000000000000000000000110110#32) = .ok (.wrGpio2Data 0b1001 0b10000000000000000000000000110110) := by decide
/-- `RD_GPIO2_TRI`: 0000001100bbbb… -/
theorem test_decode_rdGpio2Tri :
    decode (0b0000001100#10 ++ 0b0111#4 ++ 0b10000000000000000000000000110110#32) = .ok (.rdGpio2Tri 0b0111) := by decide
/-- `WR_GPIO2_TRI`: 1000001100bbbb… -/
theorem test_decode_wrGpio2Tri :
    decode (0b1000001100#10 ++ 0b1010#4 ++ 0b10000000000000000000000000110110#32) = .ok (.wrGpio2Tri 0b1010 0b10000000000000000000000000110110) := by decide
/-- `RD_GIER`: 0100011100bbbb… -/
theorem test_decode_rdGier :
    decode (0b0100011100#10 ++ 0b0011#4 ++ 0b10000000000000000000000000110110#32) = .ok (.rdGier 0b0011) := by decide
/-- `WR_GIER`: 1100011100bbbb… -/
theorem test_decode_wrGier :
    decode (0b1100011100#10 ++ 0b0100#4 ++ 0b10000000000000000000000000110110#32) = .ok (.wrGier 0b0100 0b10000000000000000000000000110110) := by decide
/-- `RD_IPISR`: 0100100000bbbb… -/
theorem test_decode_rdIpisr :
    decode (0b0100100000#10 ++ 0b1111#4 ++ 0b10000000000000000000000000110110#32) = .ok (.rdIpisr 0b1111) := by decide
/-- `WR_IPISR`: 1100100000bbbb… -/
theorem test_decode_wrIpisr :
    decode (0b1100100000#10 ++ 0b0000#4 ++ 0b10000000000000000000000000110110#32) = .ok (.wrIpisr 0b0000 0b10000000000000000000000000110110) := by decide
/-- `RD_IPIER`: 0100101000bbbb… -/
theorem test_decode_rdIpier :
    decode (0b0100101000#10 ++ 0b1001#4 ++ 0b10000000000000000000000000110110#32) = .ok (.rdIpier 0b1001) := by decide
/-- `WR_IPIER`: 1100101000bbbb… -/
theorem test_decode_wrIpier :
    decode (0b1100101000#10 ++ 0b0111#4 ++ 0b10000000000000000000000000110110#32) = .ok (.wrIpier 0b0111 0b10000000000000000000000000110110) := by decide

/-- The refused words of 95_test_vectors.md 2.2. -/
theorem test_decode_refusals :
    decode (memRead 0x002 0xF).toWord = .error .misaligned ∧ decode (memWrite 0x121 0x1 0).toWord = .error .misaligned ∧
    decode (memRead 0x010 0xF).toWord = .error .unmapped ∧ decode (memWrite 0x124 0xF 0).toWord = .error .unmapped ∧
    decode (memRead 0x1FC 0xF).toWord = .error .unmapped := by decide
/-- The table's words in whole bytes, 48 bits; a word with a bit above 45 is no descriptor. -/
theorem test_decodeTableWord :
    decodeTableWord 48 0x320000000000 = some (.wrIpisr 0 0) ∧ decodeTableWord 48 0x400000000000 = none := by decide

/-! ### Small states -/

/-- Reset, with the given channels. -/
def st (a b : ChannelState) : State := { State.reset with ch1 := a, ch2 := b }
/-- A channel with data, tri-state, status bit and posted flag; its enable bit 0. -/
def ch (data tri : Word) (isr posted : Bool) : ChannelState := ⟨data, tri, false, isr, posted⟩
/-- A channel as after reset. -/
def ch0 : ChannelState := ch 0 0 false false
/-- A PENDING channel (60_exceptions.md R166). -/
def chPending : ChannelState := ch 0 0 true true
/-- A STALE channel (60_exceptions.md R166). -/
def chStale : ChannelState := ch 0 0 false true
/-- Channel 1's raise and lower, channel 2's raise and lower. -/
def raise1 : Event := ⟨.intrTarget, .raise⟩
def lower1 : Event := ⟨.intrTarget, .lower⟩
def raise2 : Event := ⟨.intrTarget2, .raise⟩
def lower2 : Event := ⟨.intrTarget2, .lower⟩
/-- The state after one access (the state itself where there is none). -/
def after (i : Instr) (s : State) : State := match exec i s with | .next t => t | _ => s
/-- The state after one step (the state itself where there is none). -/
def next (s : State) : State := match step s with | .next t => t | _ => s

/-! ### Vectors of 95_test_vectors.md -/

/-- 2.6, first row (S6). -/
theorem test_rdGpioData_acknowledges :
    let t := after (.rdGpioData 0xF) (st (ch 0x0000ABCD 0 true true) ch0)
    t.result = .rdata 0x0000ABCD ∧ t.ch1 = ch 0x0000ABCD 0 false false ∧ t.events = [lower1] ∧ t.pc = 1 := by decide
/-- 2.6, STALE row and be = 0xA row. -/
theorem test_rdGpioData_stale_partial :
    let t := after (.rdGpioData 0xA) (st (ch 0x12345678 0 false true) ch0)
    t.result = .rdata 0x12005600 ∧ t.ch1 = ch 0x12345678 0 false true ∧ t.events = [] := by decide
/-- 2.7, second row, PRESERVE. -/
theorem test_wrGpioData_preserve :
    (after (.wrGpioData 0xF 0) (st (ch 0xF0F0F0F0 0x0000FFFF false false) ch0)).ch1.data = 0x0000F0F0 := by decide
/-- 2.7, third row, CLEAR. -/
theorem test_wrGpioData_clear :
    (after (.wrGpioData 0x5 0xAAAAAAAA) ((st (ch 0x12345678 0x00FF00FF false false) ch0).withInputBits .clear)).ch1.data
      = 0x12005600 := by decide
/-- 2.8, third row. -/
theorem test_rdGpioTri : (after (.rdGpioTri 0xC) (st (ch 0 0xFFFF0000 false false) ch0)).result = .rdata 0xFFFF0000 := by
  decide
/-- 2.8, first row. -/
theorem test_wrGpioTri_partial : (after (.wrGpioTri 0x3 0x12345678) State.reset).ch1.tri = 0x00005678 := by decide
/-- 2.8, last row. -/
theorem test_wrGpioTri_keeps_data :
    (after (.wrGpioTri 0xF 0xFFFFFFFF) (st (ch 0x5A5A5A5A 0 false false) ch0)).ch1 = ch 0x5A5A5A5A 0xFFFFFFFF false false := by
  decide
/-- 2.6, fifth row. -/
theorem test_rdGpio2Data_leaves_channel1 :
    let t := after (.rdGpio2Data 0xF) (st chPending (ch 0x77 0 true true))
    t.reg .ipisr = 0x1 ∧ t.ch1 = chPending ∧ t.events = [lower2] ∧ t.result = .rdata 0x77 := by decide
/-- 2.7, seventh row. -/
theorem test_wrGpio2Data_own_tri :
    (after (.wrGpio2Data 0xF 0xAABBCCDD) (st (ch 0 0xFFFFFFFF false false) (ch 0 0xFF false false))).ch2.data
      = 0xAABBCC00 := by decide
/-- 2.7, eighth row. -/
theorem test_wrGpio2Data_partial :
    (after (.wrGpio2Data 0x4 0x11223344) (st ch0 (ch 0xAABBCC00 0xFF false false))).ch2.data = 0xAA22CC00 := by decide
/-- 2.8, fourth row. -/
theorem test_rdGpio2Tri : (after (.rdGpio2Tri 0x1) (st ch0 (ch 0 0xFF false false))).result = .rdata 0xFF := by decide
/-- 2.8, second row. -/
theorem test_wrGpio2Tri_partial : (after (.wrGpio2Tri 0x8 0xFFFFFFFF) State.reset).ch2.tri = 0xFF000000 := by decide
/-- 2.3, be = 0x7 and be = 0x8 reads. -/
theorem test_rdGier_lanes :
    (after (.rdGier 0x7) (State.reset.setGie true)).result = .rdata 0 ∧
    (after (.rdGier 0x8) (State.reset.setGie true)).result = .rdata 0x80000000 := by decide
/-- 2.3, second row. -/
theorem test_wrGier_ignores_low_bits : (after (.wrGier 0xF 0x7FFFFFFF) (State.reset.setGie true)).reg .gier = 0 := by decide
/-- 2.3, be = 0x7 write. -/
theorem test_wrGier_lane_not_selected : (after (.wrGier 0x7 0) (State.reset.setGie true)).reg .gier = 0x80000000 := by decide
/-- 2.5, last row of the corner cases. -/
theorem test_rdIpisr_both :
    let t := after (.rdIpisr 0xF) (st chPending chPending)
    t.result = .rdata 3 ∧ t.ch1 = chPending ∧ t.events = [] := by decide
/-- 2.5, start (0,1), selector 3. -/
theorem test_wrIpisr_mixed :
    let t := after (.wrIpisr 0xF 3) (st chPending ch0)
    t.reg .ipisr = 2 ∧ t.ch1.posted = true ∧ t.ch2.posted = true ∧ t.events = [raise2] := by decide
/-- 2.5, be = 0xE under MERGED. -/
theorem test_wrIpisr_merged_lane_not_selected :
    let t := after (.wrIpisr 0xE 3) ((st chPending ch0).withCtrlMode .merged)
    t.reg .ipisr = 0 ∧ t.ch1.posted = true ∧ t.events = [] := by decide
/-- 2.4, last row. -/
theorem test_rdIpier_lane_not_selected : (after (.rdIpier 0x2) (State.reset.setIer true true)).result = .rdata 0 := by decide
/-- 2.4, 0xFFFFFFFE. -/
theorem test_wrIpier_selector : (after (.wrIpier 0xF 0xFFFFFFFE) (State.reset.setIer true false)).reg .ipier = 2 := by decide
/-- 2.4, be = 0xE. -/
theorem test_wrIpier_lane_not_selected : (after (.wrIpier 0xE 3) State.reset).reg .ipier = 0 := by decide
/-- 2.1. -/
theorem test_bemask :
    bemask 0x5 = 0x00FF00FF ∧ bemask 0xA = 0xFF00FF00 ∧ bemask 0xE = 0xFFFFFF00 ∧ bemask 0x0 = 0 := by decide
/-- 2.9, first row, through the step. -/
theorem test_pinUpdate :
    let t := next { st (ch 0x12345678 0xFFFF0000 false false) ch0 with input := [.pin .ch1 0xABCD1234] }
    t.ch1.data = 0xABCD5678 ∧ t.pc = 0 ∧ t.input = [] := by decide
/-- 2.2, refused (0, 0x002, 0xF). -/
theorem test_step_refuses_misaligned :
    next { State.reset with input := [.access (memRead 0x002 0xF).toWord] } =
      { State.reset with refused := true, result := .refused .misaligned } := by decide
/-- 2.2, (0, 0x010, 0xF) under RAZ_WI. -/
theorem test_step_razWi :
    let s := { State.reset with
      params := { Params.standard with unmappedPolicy := .razWi }, input := [.access (memRead 0x010 0xF).toWord] }
    (next s).result = .rdata 0 ∧ (next s).refused = false ∧ (next s).pc = 1 := by decide
/-- 20_memory.md R56: under BIG the byte at `base + off` is lane 3. -/
theorem test_step_bus_byte_big :
    let s := { State.reset with
      params := { Params.standard with busByteOrder := .big }
      input := [.bus ⟨true, 0x004, .byte 0, 0xAABBCCDD⟩] }
    (next s).ch1.tri = 0xAA000000 := by decide
/-- The table word of WR_IPISR runs as the first access after reset. -/
theorem test_withFetchWord_runs :
    (next (State.reset.withFetchWord 48 0x320F00000001)).events = [raise1] := by decide

/-! ### Witnesses: for each statement with hypotheses, a state and operands that meet them -/

/-- Reset with one input. -/
def withInput (x : Input) : State := { State.reset with input := [x] }
/-- Channel 1 STALE with its line up. -/
def stale1 : State := { st chStale ch0 with events := [raise1] }
/-- Channel 1 PENDING with its line up. -/
def pending1 : State := { st chPending ch0 with events := [raise1] }

/-- EncodedAccessDecodesToItself, DecodedWordEncodesBack, AccessMapDecidesEveryWord. -/
theorem witness_decoded_word :
    (Instr.wrGier 0x8 0x80000000).wellFormed = true ∧ decode 0x31CF80000000 = .ok (.wrGier 0xF 0x80000000) ∧
    decode 0x11CF80000000 = .ok (.rdGier 0xF) := by decide
/-- ByteEnableMaskSelectsLanes, at the last bit. -/
theorem witness_mask_bit : 31 < 32 ∧ (0x8 : ByteEnable).getLsbD (31 / 8) = true := by decide
/-- StepRunsDecodedAccess and MappedAccessAlwaysCompletes, for a descriptor and for a bus access. -/
theorem witness_step_decodes :
    (withInput (.access 0x320F00000001)).input = .access 0x320F00000001 :: [] ∧
    accessWordOf (withInput (.access 0x320F00000001)).params.busByteOrder (.access 0x320F00000001) = some 0x320F00000001 ∧
    decode 0x320F00000001 = .ok (.wrIpisr 0xF 1) ∧
    offsetOf 0x320F00000001 ∈ [0x000, 0x004, 0x008, 0x00C, 0x11C, 0x120, 0x128] ∧
    accessWordOf .little (.bus ⟨true, 0x120, .byte 0, 1⟩) = some 0x320100000001 := by decide
/-- RefusedAccessOnlySetsTheMark: a misaligned offset, an unmapped one under the default, an unrefused next state. -/
theorem witness_refused_access :
    (withInput (.access 0x002F00000000)).input = .access 0x002F00000000 :: [] ∧
    accessWordOf State.reset.params.busByteOrder (.access 0x002F00000000) = some 0x002F00000000 ∧
    offsetOf 0x002F00000000 % 4 ≠ 0 ∧ UnmappedOffset (offsetOf 0x010F00000000) ∧
    State.reset.params.unmappedPolicy = .refuse := by decide
/-- RefusedAccessOnlySetsTheMark, the unmapped clause. -/
theorem witness_unmapped_access :
    (withInput (.access 0x010F00000000)).input = .access 0x010F00000000 :: [] ∧
    accessWordOf State.reset.params.busByteOrder (.access 0x010F00000000) = some 0x010F00000000 := ⟨rfl, rfl⟩
/-- MappedAccessAlwaysCompletes: a write and a read. -/
theorem witness_kinds : (0x31CF80000000 : AccessWord).getLsbD 45 = true ∧ (0x11CF00000000 : AccessWord).getLsbD 45 = false := by
  decide
/-- FullIpisrWriteTogglesEachChannelAlone: each clause, on channel 1. -/
theorem witness_selector :
    (0x2 : Word).getLsbD (bitOf .ch1) = false ∧
    ((0x1 : Word).getLsbD (bitOf .ch1) = true ∧ ((st chPending ch0).chan .ch1).isr = true) ∧
    (State.reset.chan .ch1).isr = false := by decide
/-- ReservedBitsAlwaysReadZero: the highest and lowest reserved bits, and the fields beside them can be 1. -/
theorem witness_reserved_ends :
    30 < 31 ∧ 2 ≤ 2 ∧ ((State.reset.setGie true).reg .gier).getLsbD 31 = true ∧
    ((st chPending chPending).reg .ipisr).getLsbD 1 = true := by decide
theorem witness_unrefused_step : step State.reset = .next State.reset ∧ State.reset.Unrefused := ⟨rfl, rfl⟩
/-- The unmapped ranges at their ends, and their neighbours (20_memory.md R52). -/
theorem witness_unmapped_ends :
    UnmappedOffset 0x010 ∧ UnmappedOffset 0x118 ∧ UnmappedOffset 0x124 ∧ UnmappedOffset 0x12C ∧ UnmappedOffset 0x1FC ∧
    ¬UnmappedOffset 0x00C ∧ ¬UnmappedOffset 0x11C ∧ ¬UnmappedOffset 0x120 ∧ ¬UnmappedOffset 0x128 := by decide
/-- UnmappedReadsZeroWritesIgnored. -/
theorem witness_razWi :
    let s := { withInput (.access 0x210F00000001) with params := { Params.standard with unmappedPolicy := .razWi } }
    s.input = .access 0x210F00000001 :: [] ∧ UnmappedOffset (offsetOf 0x210F00000001) ∧
    accessWordOf s.params.busByteOrder (.access 0x210F00000001) = some 0x210F00000001 ∧
    s.params.unmappedPolicy = .razWi := by decide
/-- PinUpdateChangesInputBitsOnly, each clause. -/
theorem witness_pinUpdate :
    let off := { withInput (.pin .ch2 7) with params := { Params.standard with extPinUpdate := .absent } }
    (withInput (.pin .ch1 7)).params.extPinUpdate = .inputBits ∧ (withInput (.pin .ch1 7)).input = .pin .ch1 7 :: [] ∧
    (withInput (.pin .ch2 7)).input = .pin .ch2 7 :: [] ∧ off.params.extPinUpdate = .absent ∧
    off.input = .pin .ch2 7 :: [] := by decide
/-- IdleStepChangesNothing, StepTakesOneInputKeepsParameters, AccessIndexCountsCompletedAccesses. -/
theorem witness_idle : State.reset.input = [] ∧ step State.reset = .next State.reset := ⟨rfl, rfl⟩
/-- StepTakesOneInputKeepsParameters and AccessIndexCountsCompletedAccesses with an input. -/
theorem witness_step_next :
    step (withInput (.access 0x120F00000000)) = .next { State.reset with pc := 1, result := .rdata 0 } := rfl
/-- DataWriteUnderPreserve and PreserveKeepsInputBits (an input bit of a written register). -/
theorem witness_preserve :
    let s := st (ch 0xF0F0F0F0 0x0000FFFF false false) ch0
    s.params.dataWriteInputBits = .preserve ∧ (s.chan .ch1).tri.getLsbD 4 = true ∧
    (after (.wrGpioData 0xF 0) s).ch1.data = 0x0000F0F0 := by decide
/-- DataWriteUnderClear. -/
theorem witness_clear : (State.reset.withInputBits .clear).params.dataWriteInputBits = .clear := rfl
/-- DataWriteBitByBit, at the last bit. -/
theorem witness_bit : 31 < 32 := by decide
/-- PlainReadFrame. -/
theorem witness_plainRead :
    Instr.rdIpisr 0xF ∈ [Instr.rdGier 0xF, .rdIpier 0xF, .rdIpisr 0xF, .rdGpioTri 0xF, .rdGpio2Tri 0xF] ∧
    exec (.rdIpisr 0xF) pending1 = .next (pending1.finishRead .ipisr 0xF) := ⟨by decide, rfl⟩
/-- DataReadFrame, SecondDataReadChangesNothing. -/
theorem witness_dataRead :
    exec (dataRead .ch1 0x0) pending1 = .next ((pending1.acknowledge .ch1).finishRead .gpioData 0x0) ∧
    (Channel.ch2 ≠ .ch1) := ⟨rfl, by decide⟩
/-- ChannelWriteFrame. -/
theorem witness_channelWrite :
    (Instr.wrGpioTri 0xF 1, Reg.gpioTri) ∈ [(Instr.wrGpioData 0xF 1, Reg.gpioData), (.wrGpioTri 0xF 1, .gpioTri),
      (.wrGpio2Data 0xF 1, .gpio2Data), (.wrGpio2Tri 0xF 1, .gpio2Tri)] ∧
    exec (.wrGpioTri 0xF 1) State.reset = .next (after (.wrGpioTri 0xF 1) State.reset) := ⟨by decide, rfl⟩
/-- InterruptWriteFrame, with a posted flag already set. -/
theorem witness_interruptWrite :
    (Instr.wrIpisr 0xF 3, Reg.ipisr) ∈ [(Instr.wrGier 0xF 3, Reg.gier), (.wrIpier 0xF 3, .ipier), (.wrIpisr 0xF 3, .ipisr)] ∧
    exec (.wrIpisr 0xF 3) stale1 = .next (after (.wrIpisr 0xF 3) stale1) ∧ (stale1.chan .ch1).posted = true :=
  ⟨by decide, rfl, rfl⟩
/-- StatusBitStateMachine, accesses: CLEAR to SET, SET to CLEAR by a write and by a read, unchanged, and SET to CLEAR by a
write with lane 0 not selected under `MERGED`. -/
theorem witness_statusBit :
    ((stale1.chan .ch1).isr = false ∧ ((after (.wrIpisr 0x1 1) stale1).chan .ch1).isr = true) ∧
    ((pending1.chan .ch1).isr = true ∧ ((after (.wrIpisr 0x1 1) pending1).chan .ch1).isr = false) ∧
    ((after (dataRead .ch1 0x0) pending1).chan .ch1).isr = false ∧
    ((after (.wrIpisr 0x1 2) pending1).chan .ch1).isr = (pending1.chan .ch1).isr ∧
    ((after (.wrIpisr 0xE 0) (pending1.withCtrlMode .merged)).chan .ch1).isr = false := by decide
/-- StatusBitStateMachine, pin update: the step exists while the status bit is SET, and moves an input bit. -/
theorem witness_statusBit_pin :
    ((pending1.setTri .ch1 0x1).chan .ch1).isr = true ∧ ((pending1.setTri .ch1 0x1).chan .ch1).data.getLsbD 0 = false ∧
    step { pending1.setTri .ch1 0x1 with input := [.pin .ch1 0x1] } =
      .next { (pending1.setTri .ch1 0x1).pinUpdate .ch1 0x1 with input := [] } ∧
    (((pending1.setTri .ch1 0x1).pinUpdate .ch1 0x1).chan .ch1).data.getLsbD 0 = true :=
  ⟨by decide, by decide, rfl, by decide⟩
/-- ChannelPhaseTransitions, SecondRaiseIsLoggedAndLineStaysUp, StaleNeverGoesStraightToIdle: each phase, and the operands. -/
theorem witness_phases :
    State.reset.phase .ch1 = some .idle ∧ pending1.phase .ch1 = some .pending ∧ stale1.phase .ch1 = some .stale ∧
    (0x1 : ByteEnable).getLsbD 0 = true ∧ (0x1 : Word).getLsbD (bitOf .ch1) = true := by decide
theorem witness_stale_step : step stale1 = .next stale1 ∧ stale1.phase .ch1 = some .stale := ⟨rfl, by decide⟩
/-- SignalCallsOfOneAccess. -/
theorem witness_two_raises :
    exec (.wrIpisr 0xF 3) State.reset = .next (after (.wrIpisr 0xF 3) State.reset) ∧
    (after (.wrIpisr 0xF 3) State.reset).events = [raise1, raise2] := ⟨rfl, by decide⟩
/-- LevelFollowsTheLastEvent, each clause. -/
theorem witness_level :
    (∀ x ∈ [raise2], x.target ≠ .intrTarget) ∧ raise1.target = .intrTarget ∧ raise2.target ≠ .intrTarget := by decide
/-- StepKeepsCoherence, in a state with a line up. -/
theorem witness_coherent_step : stale1.Coherent ∧ step stale1 = .next stale1 := ⟨by decide, rfl⟩
/-- ReachableStatesAreCoherent: a reachable state. -/
theorem witness_reachable : Reachable (withInput (.access 0x320F00000001)) := .reset Params.standard _
/-- EnablesGateNothing. -/
theorem witness_enables :
    (∀ be, Instr.wrIpisr 0xF 1 ≠ .rdGier be ∧ Instr.wrIpisr 0xF 1 ≠ .rdIpier be) ∧
    exec (.wrIpisr 0xF 1) State.reset = .next (after (.wrIpisr 0xF 1) State.reset) :=
  ⟨fun _ => ⟨Instr.noConfusion, Instr.noConfusion⟩, rfl⟩
/-- ChannelsShareNoState, each clause. -/
theorem witness_channels :
    Instr.rdGpioData 0xF ∈ [Instr.rdGpioData 0xF, .wrGpioData 0xF 1, .rdGpioTri 0xF, .wrGpioTri 0xF 1] ∧
    exec (.rdGpioData 0xF) pending1 = .next (after (.rdGpioData 0xF) pending1) ∧
    Instr.wrGpio2Tri 0xF 1 ∈ [Instr.rdGpio2Data 0xF, .wrGpio2Data 0xF 1, .rdGpio2Tri 0xF, .wrGpio2Tri 0xF 1] ∧
    exec (.wrGpio2Tri 0xF 1) pending1 = .next (after (.wrGpio2Tri 0xF 1) pending1) :=
  ⟨by decide, rfl, by decide, rfl⟩
/-- CtrlWriteModesDifferOnlyAtIpisr, each clause. -/
theorem witness_ctrlModes :
    (∀ be v, Instr.wrIpisr 0x1 1 = .wrIpisr be v → be.getLsbD 0 = true) ∧
    exec (.wrIpisr 0x1 1) (pending1.withCtrlMode .laneGated) =
      .next ((after (.wrIpisr 0x1 1) pending1).withCtrlMode .laneGated) ∧ (0xE : ByteEnable).getLsbD 0 = false :=
  ⟨fun _ _ h => by cases h; rfl, rfl, rfl⟩
/-- InputBitReadingsAgreeOnClearInputs, with input bits present and 0. -/
theorem witness_clear_inputs :
    let s := st (ch 0xFFFF0000 0x0000FFFF false false) ch0
    s.ch1.data &&& s.ch1.tri = 0 ∧ s.ch2.data &&& s.ch2.tri = 0 ∧
    exec (.wrGpioData 0xF 1) (s.withInputBits .preserve) = .next ((after (.wrGpioData 0xF 1) s).withInputBits .preserve) :=
  ⟨by decide, by decide, rfl⟩
/-- PreserveKeepsInputBits: the access. -/
theorem witness_preserve_access :
    exec (.wrGpioData 0xF 0) (st (ch 0 1 false false) ch0) = .next (after (.wrGpioData 0xF 0) (st (ch 0 1 false false) ch0)) ∧
    ((st (ch 0 1 false false) ch0).chan .ch1).tri.getLsbD 0 = true := ⟨rfl, by decide⟩
/-- OutputBitsChangeOnlyByDataWrites: a step that changes an output bit. -/
theorem witness_output_bit :
    let s := withInput (.access 0x200F00000001)
    step s = .next (next s) ∧ (s.chan .ch1).tri.getLsbD 0 = false ∧
    ((next s).chan .ch1).data.getLsbD 0 ≠ (s.chan .ch1).data.getLsbD 0 := ⟨rfl, by decide, by decide⟩
/-- SameIpisrWriteTwiceRestoresStatus: lane 0 selected, one channel selected and one not. -/
theorem witness_twice :
    (0x1 : ByteEnable).getLsbD 0 = true ∧ (0x1 : Word).getLsbD (bitOf .ch1) = true ∧
    (0x1 : Word).getLsbD (bitOf .ch2) = false := by decide

end Sys2Proof.Tests
end

section
/-! SUPPORT. Proofs of the scope family (00_scope.md): a step performs the next input's access. -/

namespace Sys2Proof.Machine

open Sys2Proof

/-- The step takes the first input off the list and performs it (20_memory.md R60). -/
theorem step_of_input {s : State} {x : Input} {rest : List Input} (h : s.input = x :: rest) :
    step s = perform x { s with input := rest } := by
  simp [step, State.takeInput_cons h]

/-- A step at a host access, whether it decodes or not, is that access's descriptor performed (20_memory.md R56). -/
theorem step_of_accessWord {s : State} {x : Input} {rest : List Input} {w : AccessWord} (h : s.input = x :: rest)
    (hw : accessWordOf s.params.busByteOrder x = some w) :
    step s = accessStep w { s with input := rest } :=
  (step_of_input h).trans (perform_of_accessWord hw)

/-- A descriptor that decodes runs its access alone (30_encoding.md R77). -/
theorem accessStep_of_decode_ok {w : AccessWord} {i : Instr} (h : decode w = .ok i) (s : State) :
    accessStep w s = exec i s := by
  simp [accessStep, h]

/-- Settles O8: the access is performed by its descriptor, which decodes to `i`. -/
theorem stepRunsDecodedAccess : Obligations.StepRunsDecodedAccess := by
  intro s x rest w i hin hw hdec
  calc step s = accessStep w { s with input := rest } := step_of_accessWord hin hw
    _ = exec i { s with input := rest } := accessStep_of_decode_ok hdec _

end Sys2Proof.Machine
end

section
/-! SUPPORT. Proofs of the state family (10_state.md): what an access can leave, the line level, the invariant of R38,
the access index, the input bits and the reserved bits. -/

namespace Sys2Proof.Machine

open Sys2Proof

/-! ### What an access can do to the state before it completes -/

/-- The effects an access can have, before its result is stored and the access index advances. -/
inductive AccessEffect (s : State) : State → Prop where
  /-- A plain read, an unmapped access under `RAZ_WI`, or a field whose lane is not selected (R92, R77, R94). -/
  | keep : AccessEffect s s
  /-- A data-register read (R131, R139). -/
  | acknowledge (c : Channel) : AccessEffect s (s.acknowledge c)
  /-- A data-register write (R133, R141). -/
  | writeData (c : Channel) (be : ByteEnable) (v : Word) : AccessEffect s (s.writeData c be v)
  /-- A tri-state write (R137, R144). -/
  | writeTri (c : Channel) (be : ByteEnable) (v : Word) : AccessEffect s (s.writeTri c be v)
  /-- A GIER write (R102). -/
  | setGie (b : Bool) : AccessEffect s (s.setGie b)
  /-- An IPIER write (R106). -/
  | setIer (b1 b2 : Bool) : AccessEffect s (s.setIer b1 b2)
  /-- An IPISR write (R111). -/
  | toggle (b1 b2 : Bool) : AccessEffect s ((s.toggleIf .ch1 b1).toggleIf .ch2 b2)

/-- Every access has one of the effects and completes, with a result that is no refusal (40_access_common.md R96). -/
theorem exec_effect (i : Instr) (s : State) :
    ∃ u r, AccessEffect s u ∧ exec i s = .next (u.complete r) ∧ ∀ x, r ≠ .refused x := by
  cases i with
  | rdGpioData be => exact ⟨_, _, .acknowledge .ch1, rfl, nofun⟩
  | rdGpio2Data be => exact ⟨_, _, .acknowledge .ch2, rfl, nofun⟩
  | wrGpioData be v => exact ⟨_, _, .writeData .ch1 be v, rfl, nofun⟩
  | wrGpio2Data be v => exact ⟨_, _, .writeData .ch2 be v, rfl, nofun⟩
  | wrGpioTri be v => exact ⟨_, _, .writeTri .ch1 be v, rfl, nofun⟩
  | wrGpio2Tri be v => exact ⟨_, _, .writeTri .ch2 be v, rfl, nofun⟩
  | rdGpioTri be | rdGpio2Tri be | rdGier be | rdIpisr be | rdIpier be => exact ⟨_, _, .keep, rfl, nofun⟩
  | wrGier be v =>
    cases h : s.laneValueOf .gier 3 be v with
    | none => exact ⟨_, _, .keep, exec_wrGier_none h, nofun⟩
    | some u => exact ⟨_, _, .setGie _, exec_wrGier_some h, nofun⟩
  | wrIpier be v =>
    cases h : s.laneValueOf .ipier 0 be v with
    | none => exact ⟨_, _, .keep, exec_wrIpier_none h, nofun⟩
    | some u => exact ⟨_, _, .setIer _ _, exec_wrIpier_some h, nofun⟩
  | wrIpisr be v =>
    cases h : s.laneValueOf .ipisr 0 be v with
    | none => exact ⟨_, _, .keep, exec_wrIpisr_none h, nofun⟩
    | some u => exact ⟨_, _, .toggle _ _, exec_wrIpisr_some h, nofun⟩

/-- A host access, decoded or not, is refused or has one of the effects and completes (30_encoding.md R77, R80). -/
theorem accessStep_effect {w : AccessWord} {s t : State} (h : accessStep w s = .next t) :
    (∃ r, t = s.refuse r) ∨ ∃ u r, AccessEffect s u ∧ t = u.complete r ∧ ∀ x, r ≠ .refused x := by
  obtain ⟨i, -, ht⟩ | ⟨-, ht⟩ | ⟨-, -, ht⟩ | ⟨-, -, ht⟩ := accessStep_cases h
  · obtain ⟨u, r, hu, he, hr⟩ := exec_effect i s
    exact .inr ⟨u, r, hu, by simpa [he] using ht, hr⟩
  · exact .inl ⟨.misaligned, by simpa using ht⟩
  · exact .inl ⟨.unmapped, by simpa using ht⟩
  · exact .inr ⟨s, _, .keep, by simpa using ht, by split <;> nofun⟩

/-! ### Fields the operations leave alone -/

@[simp] theorem State.toggleIf_true (s : State) (c : Channel) : s.toggleIf c true = s.toggleStatus c := rfl
@[simp] theorem State.toggleIf_false (s : State) (c : Channel) : s.toggleIf c false = s := rfl

@[simp] theorem State.toggleStatus_pc (s : State) (c : Channel) : (s.toggleStatus c).pc = s.pc := by
  simp [State.toggleStatus]
@[simp] theorem State.toggleIf_pc (s : State) (c : Channel) (b : Bool) : (s.toggleIf c b).pc = s.pc := by
  cases b <;> simp
@[simp] theorem State.acknowledge_pc (s : State) (c : Channel) : (s.acknowledge c).pc = s.pc := by
  simp [State.acknowledge]

@[simp] theorem State.chan_setData_isr (s : State) (c d : Channel) (v : Word) :
    ((s.setData c v).chan d).isr = (s.chan d).isr := by
  cases c <;> cases d <;> rfl
@[simp] theorem State.chan_setData_posted (s : State) (c d : Channel) (v : Word) :
    ((s.setData c v).chan d).posted = (s.chan d).posted := by
  cases c <;> cases d <;> rfl
@[simp] theorem State.chan_setTri_isr (s : State) (c d : Channel) (v : Word) :
    ((s.setTri c v).chan d).isr = (s.chan d).isr := by
  cases c <;> cases d <;> rfl
@[simp] theorem State.chan_setTri_posted (s : State) (c d : Channel) (v : Word) :
    ((s.setTri c v).chan d).posted = (s.chan d).posted := by
  cases c <;> cases d <;> rfl
@[simp] theorem State.chan_setTri_data (s : State) (c d : Channel) (v : Word) :
    ((s.setTri c v).chan d).data = (s.chan d).data := by
  cases c <;> cases d <;> rfl
@[simp] theorem State.chan_setIer_isr (s : State) (b1 b2 : Bool) (d : Channel) :
    ((s.setIer b1 b2).chan d).isr = (s.chan d).isr := by
  cases d <;> rfl
@[simp] theorem State.chan_setIer_posted (s : State) (b1 b2 : Bool) (d : Channel) :
    ((s.setIer b1 b2).chan d).posted = (s.chan d).posted := by
  cases d <;> rfl
@[simp] theorem State.chan_setIer_data (s : State) (b1 b2 : Bool) (d : Channel) :
    ((s.setIer b1 b2).chan d).data = (s.chan d).data := by
  cases d <;> rfl

/-- A toggle changes no data register (41_interrupt_registers.md R111). -/
@[simp] theorem State.chan_toggleIf_data (s : State) (c d : Channel) (b : Bool) :
    ((s.toggleIf c b).chan d).data = (s.chan d).data := by
  cases b with
  | false => rfl
  | true =>
    obtain ⟨hself, hother, -⟩ := s.toggleStatus_spec c
    by_cases h : d = c
    · subst h; simp [hself]
    · simp [hother d h]

/-- An acknowledge changes no data register (42_channel_registers.md R131). -/
@[simp] theorem State.chan_acknowledge_data (s : State) (c d : Channel) :
    ((s.acknowledge c).chan d).data = (s.chan d).data := by
  obtain ⟨hself, hother, -⟩ := s.acknowledge_spec c
  by_cases h : d = c
  · subst h; simp [hself]
  · simp [hother d h]

/-! ### The line level (10_state.md R37) -/

/-- With no event for a target its level is 0. -/
theorem level_of_no_event {log : List Event} {t : Target} (h : ∀ x ∈ log, x.target ≠ t) : level log t = false := by
  have hnil : log.filter (fun e => e.target = t) = [] := by simpa using h
  simp [level, hnil]

/-- One more event decides the level of its own target and of no other. -/
theorem level_concat (log : List Event) (e : Event) (t : Target) :
    level (log ++ [e]) t = if e.target = t then decide (e.call = .raise) else level log t := by
  by_cases h : e.target = t <;> simp [level, h]

/-- Settles O38: the filter of the longer log ends in the new event exactly when it is for the target. -/
theorem levelFollowsTheLastEvent : Obligations.LevelFollowsTheLastEvent := by
  intro log e t
  refine ⟨level_of_no_event, fun h => ?_, fun h => ?_⟩
  · simp [level_concat, h]
  · simp [level_concat, h]

/-- The level of a line depends on the calls on its own target alone. -/
theorem State.line_of_callsOn_eq {s t : State} {c : Channel}
    (h : callsOn t.events (targetOf c) = callsOn s.events (targetOf c)) : t.line c = s.line c := by
  simp only [State.line, level_eq_calls, h]

/-- A toggle drives its line up from CLEAR and leaves it from SET: the line moves as the posted flag does
(10_state.md R33). -/
theorem State.toggleStatus_line (s : State) (c : Channel) :
    (s.toggleStatus c).line c = (s.line c || !(s.chan c).isr) := by
  cases h : (s.chan c).isr <;>
    simp [State.line, State.toggleStatus, ChannelState.toggleCalls, h, level_concat]

/-- An acknowledge drives its line down from SET and leaves it from CLEAR: the line moves as the posted flag does
(10_state.md R33). -/
theorem State.acknowledge_line (s : State) (c : Channel) :
    (s.acknowledge c).line c = (s.line c && !(s.chan c).isr) := by
  cases h : (s.chan c).isr <;>
    simp [State.line, State.acknowledge, ChannelState.acknowledgeCalls, h, level_concat]

/-! ### The invariant of 10_state.md R38 -/

theorem State.coherent_iff {s : State} : s.Coherent ↔ ∀ c, s.CoherentAt c :=
  ⟨fun ⟨h1, h2⟩ c => by cases c; exacts [h1, h2], fun h => ⟨h .ch1, h .ch2⟩⟩

/-- The invariant sees only a channel's status bit, posted flag and line. -/
theorem State.CoherentAt.congr {s t : State} {c : Channel} (h : s.CoherentAt c)
    (hisr : (t.chan c).isr = (s.chan c).isr) (hposted : (t.chan c).posted = (s.chan c).posted)
    (hline : t.line c = s.line c) : t.CoherentAt c := by
  unfold State.CoherentAt
  rwa [hisr, hposted, hline]

/-- A channel whose own state and calls are untouched keeps its part of the invariant. -/
theorem State.CoherentAt.of_chan_eq {s t : State} {c : Channel} (h : s.CoherentAt c) (hchan : t.chan c = s.chan c)
    (hcalls : callsOn t.events (targetOf c) = callsOn s.events (targetOf c)) : t.CoherentAt c :=
  h.congr (by rw [hchan]) (by rw [hchan]) (State.line_of_callsOn_eq hcalls)

theorem State.CoherentAt.toggleStatus {s : State} {d : Channel} (h : s.CoherentAt d) (c : Channel) :
    (s.toggleStatus c).CoherentAt d := by
  obtain ⟨hself, hother, hcalls, -⟩ := s.toggleStatus_spec c
  by_cases hdc : d = c
  · subst hdc
    obtain ⟨-, hline⟩ := h
    simp only [State.CoherentAt, hself, ChannelState.toggled_isr, ChannelState.toggled_posted, State.toggleStatus_line,
      hline, and_true]
    exact fun hset => by rw [hset, Bool.or_true]
  · exact h.of_chan_eq (hother d hdc) (by simp [hcalls d, Ne.symm hdc])

theorem State.CoherentAt.toggleIf {s : State} {d : Channel} (h : s.CoherentAt d) (c : Channel) (b : Bool) :
    (s.toggleIf c b).CoherentAt d := by
  cases b with
  | false => exact h
  | true => exact h.toggleStatus c

theorem State.CoherentAt.acknowledge {s : State} {d : Channel} (h : s.CoherentAt d) (c : Channel) :
    (s.acknowledge c).CoherentAt d := by
  obtain ⟨hself, hother, hcalls, -⟩ := s.acknowledge_spec c
  by_cases hdc : d = c
  · subst hdc
    obtain ⟨-, hline⟩ := h
    simp only [State.CoherentAt, hself, ChannelState.acknowledged_isr, ChannelState.acknowledged_posted,
      State.acknowledge_line, hline, and_true]
    exact nofun
  · exact h.of_chan_eq (hother d hdc) (by simp [hcalls d, Ne.symm hdc])

theorem State.CoherentAt.setData {s : State} {d : Channel} (h : s.CoherentAt d) (c : Channel) (v : Word) :
    (s.setData c v).CoherentAt d :=
  h.congr (by simp) (by simp) (State.line_congr (by simp) d)

/-- Every effect of an access keeps the invariant. -/
theorem AccessEffect.coherentAt {s u : State} {d : Channel} (hu : AccessEffect s u) (h : s.CoherentAt d) :
    u.CoherentAt d := by
  cases hu with
  | keep => exact h
  | acknowledge c => exact h.acknowledge c
  | writeData c be v => exact h.setData c _
  | writeTri c be v =>
    exact h.congr (by simp [State.writeTri]) (by simp [State.writeTri]) (State.line_congr (by simp [State.writeTri]) d)
  | setGie b => exact h.congr (by simp) (by simp) (State.line_congr rfl d)
  | setIer b1 b2 => exact h.congr (by simp) (by simp) (State.line_congr rfl d)
  | toggle b1 b2 => exact (h.toggleIf .ch1 b1).toggleIf .ch2 b2

/-- One step keeps a channel's part of the invariant. -/
theorem State.CoherentAt.of_step {s t : State} {d : Channel} (h : s.CoherentAt d) (hstep : step s = .next t) :
    t.CoherentAt d := by
  have htaken (rest : List Input) : { s with input := rest }.CoherentAt d := h
  obtain ⟨-, ht⟩ | ⟨x, rest, w, -, -, ht⟩ | ⟨c, p, rest, -, ht⟩ := step_cases s
  · obtain rfl : s = t := by simpa [ht] using hstep
    exact h
  · obtain ⟨r, rfl⟩ | ⟨u, r, hu, rfl, -⟩ := accessStep_effect (ht.symm.trans hstep)
    · exact (htaken rest).congr (by simp) (by simp) (State.line_congr rfl d)
    · exact (hu.coherentAt (htaken rest)).congr (by simp) (by simp) (State.line_congr rfl d)
  · obtain ⟨-, rfl⟩ := pinStep_next (ht.symm.trans hstep)
    exact (htaken rest).setData c _

/-- Settles O40: posted flag and line move by the same formula at every toggle and acknowledge, and nothing else moves
either. -/
theorem stepKeepsCoherence : Obligations.StepKeepsCoherence := by
  intro s t h hstep
  rw [State.coherent_iff] at h ⊢
  exact fun c => (h c).of_step hstep

/-- Settles O39: both status bits and both flags are 0 and no call has been made. -/
theorem resetIsCoherent : Obligations.ResetIsCoherent := by
  intro p inputs
  have hline (t : Target) : level [] t = false := level_of_no_event nofun
  rw [State.coherent_iff]
  intro c
  cases c <;> simp [State.CoherentAt, State.chan, State.resetWith, ChannelState.resetWith, State.line, hline]

/-- What holds at reset and is kept by every step holds in every reachable state. -/
theorem invariant_of_reachable {P : State → Prop} (hreset : ∀ p inputs, P { State.resetWith p with input := inputs })
    (hstep : ∀ s t, P s → step s = .next t → P t) {s : State} (h : Reachable s) : P s := by
  induction h with
  | reset p inputs => exact hreset p inputs
  | step _ hnext ih => exact hstep _ _ ih hnext

/-- The full-width IPISR write that selects channel 1. -/
def toggleCh1Access : Input := .access (encode (.wrIpisr 0xF 1))

/-- Reset after one such write, with a second still to come: channel 1 is PENDING (60_exceptions.md R166). -/
def toggledOnce : State :=
  { (State.reset.toggleStatus .ch1).complete .written with input := [toggleCh1Access] }

/-- The same after the second write: channel 1 is STALE (60_exceptions.md R166). -/
def toggledTwice : State :=
  { (toggledOnce.toggleStatus .ch1).complete .written with input := [] }

theorem toggledTwice_reachable : Reachable toggledTwice := by
  have hstart : Reachable { State.reset with input := [toggleCh1Access, toggleCh1Access] } := .reset Params.standard _
  have hone : Reachable toggledOnce := .step hstart rfl
  exact .step hone rfl

/-- Settles O41: the invariant by induction on the run; the converse fails after two IPISR writes. -/
theorem reachableStatesAreCoherent : Obligations.ReachableStatesAreCoherent :=
  ⟨fun _ => invariant_of_reachable resetIsCoherent stepKeepsCoherence,
    toggledTwice, toggledTwice_reachable, by decide, by decide, by decide⟩

/-! ### The access index (10_state.md R41) -/

theorem AccessEffect.pc_eq {s u : State} (h : AccessEffect s u) : u.pc = s.pc := by
  cases h <;> simp [State.writeData, State.writeTri]

/-- A host access that is not refused advances the access index by one; a refused one leaves it. -/
theorem accessStep_pc {w : AccessWord} {s t : State} (h : accessStep w s = .next t) :
    t.pc = match t.result with
      | .refused _ => s.pc
      | _ => s.pc + 1 := by
  obtain ⟨r, rfl⟩ | ⟨u, r, hu, rfl, hr⟩ := accessStep_effect h
  · rfl
  · rw [State.complete_pc, State.complete_result, hu.pc_eq]
    cases r with
    | refused x => exact absurd rfl (hr x)
    | noAccess | written | rdata => rfl

/-- Settles O14, by the kinds of step. -/
theorem accessIndexCountsCompletedAccesses : Obligations.AccessIndexCountsCompletedAccesses := by
  refine ⟨rfl, fun s t hstep => ?_⟩
  obtain ⟨hin, ht⟩ | ⟨x, rest, w, hin, hw, ht⟩ | ⟨c, p, rest, hin, ht⟩ := step_cases s
  · obtain rfl : s = t := by simpa [ht] using hstep
    rw [hin]
  · have hpc := accessStep_pc (ht.symm.trans hstep)
    cases x with
    | access w => rw [hin]; exact hpc
    | bus b => rw [hin]; exact hpc
    | pin c p => simp [accessWordOf] at hw
  · obtain ⟨-, rfl⟩ := pinStep_next (ht.symm.trans hstep)
    rw [hin]
    exact State.setData_pc _ c _

/-! ### Input bits (10_state.md R40) -/

/-- Under `PRESERVE` a data write stores no bit whose tri-state bit is 1 (42_channel_registers.md R134). -/
theorem dataWrite_preserve_inputBit (be : ByteEnable) {tri : Word} (old new : Word) {k : Nat}
    (h : tri.getLsbD k = true) : (dataWrite .preserve be tri old new).getLsbD k = old.getLsbD k := by
  have hmask : (outputMask be tri).getLsbD k = false := by
    rw [outputMask_getLsbD be tri (BitVec.lt_of_getLsbD h), h, Bool.not_true, Bool.and_false]
  rw [dataWrite, merge_getLsbD, hmask]
  rfl

/-- Under `PRESERVE` no effect of an access changes an input bit. -/
theorem AccessEffect.inputBit_eq {s u : State} {d : Channel} {k : Nat} (hu : AccessEffect s u)
    (hmode : s.params.dataWriteInputBits = .preserve) (htri : (s.chan d).tri.getLsbD k = true) :
    (u.chan d).data.getLsbD k = (s.chan d).data.getLsbD k := by
  cases hu with
  | keep => rfl
  | acknowledge c => rw [State.chan_acknowledge_data]
  | writeData c be v =>
    by_cases h : d = c
    · subst h
      rw [State.writeData, State.chan_setData_self, hmode]
      exact dataWrite_preserve_inputBit be _ v htri
    · rw [State.writeData, State.chan_setData_ne s h]
  | writeTri c be v => rw [State.writeTri, State.chan_setTri_data]
  | setGie b => rw [State.setGie_chan]
  | setIer b1 b2 => rw [State.chan_setIer_data]
  | toggle b1 b2 => rw [State.chan_toggleIf_data, State.chan_toggleIf_data]

/-- Settles O46: only a data write changes the data register, and under `PRESERVE` it skips the input bits. -/
theorem preserveKeepsInputBits : Obligations.PreserveKeepsInputBits := by
  intro i s t c k hmode hexec htri
  obtain ⟨u, r, hu, he, -⟩ := exec_effect i s
  obtain rfl : u.complete r = t := by simpa [he] using hexec
  rw [State.complete_chan]
  exact hu.inputBit_eq hmode htri

/-! ### Reserved bits (10_state.md R32) -/

/-- Above its two fields a two-field register reads 0. -/
theorem pairValue_getLsbD_of_ge (b0 b1 : Bool) {k : Nat} (h : 2 ≤ k) : (pairValue b0 b1).getLsbD k = false := by
  rw [pairValue, BitVec.getLsbD_setWidth, BitVec.getLsbD_of_ge _ k h, Bool.and_false]

/-- Below bit 31 a one-field register reads 0. -/
theorem topBitValue_getLsbD_of_lt (b : Bool) {k : Nat} (h : k < 31) : (topBitValue b).getLsbD k = false := by
  simp [topBitValue, h]

/-- Settles O51: the three registers are built from their fields alone. -/
theorem reservedBitsAlwaysReadZero : Obligations.ReservedBitsAlwaysReadZero :=
  fun _ _ => ⟨topBitValue_getLsbD_of_lt _, pairValue_getLsbD_of_ge _ _, pairValue_getLsbD_of_ge _ _⟩

end Sys2Proof.Machine
end

section
/-! SUPPORT. Proofs of the memory family (20_memory.md): the offsets of the register window, the byte lanes, one input
per step, and what an access done twice leaves. -/

namespace Sys2Proof

/-! ### The offsets that select no register (20_memory.md R52, R57) -/

/-- The map lists no register at an offset exactly when it is none of the seven of R50. -/
theorem regAt_eq_none_iff (off : Offset) :
    regAt off = none ↔ off.toNat ∉ [0x000, 0x004, 0x008, 0x00C, 0x11C, 0x120, 0x128] := by
  unfold regAt
  split <;> simp_all

/-- `OFF[1:0] = 0b00` says that the offset is a multiple of 4 (R57). -/
theorem offset_aligned_iff (off : Offset) : off.extractLsb' 0 2 = 0b00#2 ↔ off.toNat % 4 = 0 := by
  simp [← BitVec.toNat_inj]

/-- The word-aligned offsets outside the map of R50 are those R52 lists. -/
theorem unmappedOffset_iff (off : Offset) :
    Machine.UnmappedOffset off.toNat ↔ off.toNat % 4 = 0 ∧ regAt off = none := by
  have hlt : off.toNat < 512 := off.isLt
  rw [regAt_eq_none_iff, Machine.UnmappedOffset]
  simp only [List.mem_cons, List.not_mem_nil, or_false]
  omega

theorem decodeFields_misaligned_iff (d : Descriptor) :
    decodeFields d = .error .misaligned ↔ d.off.toNat % 4 ≠ 0 := by
  unfold decodeFields
  rw [Ne, ← offset_aligned_iff]
  split
  · next haligned => split <;> simp [haligned]
  · next hmisaligned => simp [hmisaligned]

theorem decodeFields_unmapped_iff (d : Descriptor) :
    decodeFields d = .error .unmapped ↔ d.off.toNat % 4 = 0 ∧ regAt d.off = none := by
  unfold decodeFields
  rw [← offset_aligned_iff]
  split
  · next haligned => split <;> simp_all
  · next hmisaligned => simp [hmisaligned]

end Sys2Proof

namespace Sys2Proof.Machine

open Sys2Proof

/-- Settles O4: a word is decoded by its fields, alignment first and then the map. -/
theorem refusalReasonsByOffset : Obligations.RefusalReasonsByOffset :=
  fun w => ⟨decodeFields_misaligned_iff (Descriptor.ofWord w),
    (decodeFields_unmapped_iff (Descriptor.ofWord w)).trans (unmappedOffset_iff _).symm⟩

/-! ### One step, one input (20_memory.md R60, R62, R66) -/

@[simp] theorem State.toggleIf_input (s : State) (c : Channel) (b : Bool) : (s.toggleIf c b).input = s.input := by
  cases b <;> simp [State.toggleStatus]
@[simp] theorem State.toggleIf_params (s : State) (c : Channel) (b : Bool) : (s.toggleIf c b).params = s.params := by
  cases b <;> simp [State.toggleStatus]

/-- No effect of an access touches the input list or the parameters. -/
theorem AccessEffect.input_params_eq {s u : State} (h : AccessEffect s u) :
    u.input = s.input ∧ u.params = s.params := by
  cases h <;> simp [State.acknowledge, State.writeData, State.writeTri]

/-- A host access, refused or not, leaves the rest of the input list and the parameters alone. -/
theorem accessStep_input_params_eq {w : AccessWord} {s t : State} (h : accessStep w s = .next t) :
    t.input = s.input ∧ t.params = s.params := by
  obtain ⟨r, rfl⟩ | ⟨u, r, hu, rfl, -⟩ := accessStep_effect h
  · exact ⟨rfl, rfl⟩
  · exact hu.input_params_eq

/-- Settles O13, by the kinds of step. -/
theorem stepTakesOneInputKeepsParameters : Obligations.StepTakesOneInputKeepsParameters := by
  intro s t hstep
  obtain ⟨hin, ht⟩ | ⟨x, rest, w, hin, -, ht⟩ | ⟨c, p, rest, hin, ht⟩ := step_cases s
  · obtain rfl : s = t := by simpa [ht] using hstep
    simp [hin]
  · rw [hin]
    exact accessStep_input_params_eq (ht.symm.trans hstep)
  · obtain ⟨-, rfl⟩ := pinStep_next (ht.symm.trans hstep)
    rw [hin]
    exact ⟨State.setData_input _ c _, State.setData_params _ c _⟩

/-! ### A data register read twice (20_memory.md R59) -/

/-- A data-register read acknowledges and completes. -/
theorem exec_dataRead (c : Channel) (be : ByteEnable) (s : State) :
    ∃ r, exec (dataRead c be) s = .next ((s.acknowledge c).complete r) := by
  cases c <;> exact ⟨_, rfl⟩

/-- An acknowledge with nothing to acknowledge does nothing (42_channel_registers.md R131). -/
theorem State.acknowledge_of_clear {s : State} {c : Channel} (h : (s.chan c).isr = false) : s.acknowledge c = s := by
  simp only [State.acknowledge, State.signal, ChannelState.acknowledgeCalls, ChannelState.acknowledged, h]
  cases c <;> simp [State.setChan, State.chan]

/-- Settles O48: the first read leaves the status bit CLEAR, so the second has nothing to acknowledge. -/
theorem secondDataReadChangesNothing : Obligations.SecondDataReadChangesNothing := by
  intro c be be' s t hfirst
  obtain ⟨r, hr⟩ := exec_dataRead c be s
  obtain rfl : (s.acknowledge c).complete r = t := by simpa [hr] using hfirst
  have hclear : (((s.acknowledge c).complete r).chan c).isr = false := by
    rw [State.complete_chan, (s.acknowledge_spec c).1, ChannelState.acknowledged_isr]
  obtain ⟨r', hr'⟩ := exec_dataRead c be' ((s.acknowledge c).complete r)
  rw [State.acknowledge_of_clear hclear] at hr'
  exact ⟨_, hr', State.complete_chan _ r', rfl, rfl⟩

/-! ### IPISR written twice (20_memory.md R61) -/

/-- With lane 0 selected both `CTRL_WRITE_MODE` values toggle by the written bits (40_access_common.md R93). -/
theorem exec_wrIpisr_of_lane0 {be : ByteEnable} (v : Word) (s : State) (h : be.getLsbD 0 = true) :
    exec (.wrIpisr be v) s =
      .next (((s.toggleIf .ch1 (v.getLsbD 0)).toggleIf .ch2 (v.getLsbD 1)).complete .written) := by
  obtain ⟨-, hlane, -⟩ | ⟨-, -, hval⟩ | ⟨-, hval⟩ := s.laneValueOf_cases .ipisr 0 be v
  · exact absurd (hlane.symm.trans h) Bool.false_ne_true
  · exact exec_wrIpisr_some hval
  · obtain ⟨h0, h1, -⟩ := merged_field_bits be (s.reg .ipisr) v
    rw [exec_wrIpisr_some hval, h0, h1, if_pos h, if_pos h]

/-- A bit written to a status bit toggles its own channel when it is 1, and changes no other channel (R107, R111). -/
theorem State.chan_toggleIf (s : State) (c d : Channel) (b : Bool) :
    (s.toggleIf c b).chan d = if c = d ∧ b = true then (s.chan d).toggled else s.chan d := by
  cases b with
  | false => simp
  | true =>
    obtain ⟨hself, hother, -⟩ := s.toggleStatus_spec c
    by_cases h : c = d
    · subst h; simp [hself]
    · simp [hother d (Ne.symm h), h]

/-- A bit written to a status bit calls its own target when it is 1, and no other target (R107, R111). -/
theorem State.callsOn_toggleIf (s : State) (c d : Channel) (b : Bool) :
    callsOn (s.toggleIf c b).events (targetOf d) =
      callsOn s.events (targetOf d) ++ if c = d ∧ b = true then (s.chan d).toggleCalls else [] := by
  cases b with
  | false => simp
  | true =>
    obtain ⟨-, -, hcalls, -⟩ := s.toggleStatus_spec c
    by_cases h : c = d
    · subst h; simp [hcalls]
    · simp [hcalls d, h]

/-- What an IPISR write with lane 0 selected does to one channel, by that channel's bit of the written value. -/
theorem exec_wrIpisr_channel {be : ByteEnable} (v : Word) (s : State) (h : be.getLsbD 0 = true) :
    ∃ t, exec (.wrIpisr be v) s = .next t ∧ ∀ c : Channel,
      (t.chan c = if v.getLsbD (bitOf c) then (s.chan c).toggled else s.chan c) ∧
      callsOn t.events (targetOf c) =
        callsOn s.events (targetOf c) ++ if v.getLsbD (bitOf c) then (s.chan c).toggleCalls else [] := by
  refine ⟨_, exec_wrIpisr_of_lane0 v s h, fun c => ?_⟩
  rw [State.complete_chan, State.complete_events]
  cases c <;> simp [State.chan_toggleIf, State.callsOn_toggleIf, bitOf, -State.chan_ch1, -State.chan_ch2]

/-- Two toggles bring the status bit back. -/
theorem ChannelState.toggled_toggled_isr (x : ChannelState) : x.toggled.toggled.isr = x.isr := by simp

/-- One of two toggles starts from CLEAR, so the flag ends posted. -/
theorem ChannelState.toggled_toggled_posted (x : ChannelState) : x.toggled.toggled.posted = true := by
  cases h : x.isr <;> simp [h]

/-- One of two toggles starts from CLEAR, so they make one `raise`. -/
theorem ChannelState.toggleCalls_twice (x : ChannelState) : x.toggleCalls ++ x.toggled.toggleCalls = [.raise] := by
  cases h : x.isr <;> simp [ChannelState.toggleCalls, h]

/-- Settles O49: each write toggles the selected channels, and one of two toggles raises. -/
theorem sameIpisrWriteTwiceRestoresStatus : Obligations.SameIpisrWriteTwiceRestoresStatus := by
  intro be v s hlane
  obtain ⟨t, ht, hfirst⟩ := exec_wrIpisr_channel v s hlane
  obtain ⟨u, hu, hsecond⟩ := exec_wrIpisr_channel v t hlane
  refine ⟨t, u, ht, hu, fun c => ?_⟩
  obtain ⟨hchan1, hcalls1⟩ := hfirst c
  obtain ⟨hchan2, hcalls2⟩ := hsecond c
  rw [hchan1] at hchan2 hcalls2
  rw [hchan2, hcalls2, hcalls1]
  cases v.getLsbD (bitOf c) with
  | false => simp
  | true =>
    refine ⟨ChannelState.toggled_toggled_isr _, fun _ => ⟨ChannelState.toggled_toggled_posted _, ?_⟩, nofun⟩
    simp [ChannelState.toggleCalls_twice]

/-! ### Byte lanes (20_memory.md R55, R56) -/

/-- The four lanes' masks: bit i is set in its own lane's mask alone. -/
theorem laneMask_getLsbD : ∀ i < 32,
    (0x000000FF : Word).getLsbD i = decide (i / 8 = 0) ∧ (0x0000FF00 : Word).getLsbD i = decide (i / 8 = 1) ∧
    (0x00FF0000 : Word).getLsbD i = decide (i / 8 = 2) ∧ (0xFF000000 : Word).getLsbD i = decide (i / 8 = 3) := by
  decide

/-- Settles O6: only the mask of the bit's own lane can set it. -/
theorem byteEnableMaskSelectsLanes : Obligations.ByteEnableMaskSelectsLanes := by
  intro be i hi
  obtain ⟨h0, h1, h2, h3⟩ := laneMask_getLsbD i hi
  simp only [bemask, BitVec.getLsbD_or, apply_ite (BitVec.getLsbD · i), h0, h1, h2, h3]
  obtain h | h | h | h : i / 8 = 0 ∨ i / 8 = 1 ∨ i / 8 = 2 ∨ i / 8 = 3 := by omega
  all_goals simp [h]

/-- Two neighbouring lanes make a two-byte mask. -/
theorem laneBit_or_next : ∀ k : Fin 3, laneBit k.castSucc ||| laneBit k.succ = 0b11#4 <<< k.val := by decide

/-- Settles O7: under `BIG` the lanes are reversed, so the upper of two bytes is the lower lane. -/
theorem subWordMasksByByteOrder : Obligations.SubWordMasksByByteOrder := by
  refine ⟨fun i => ⟨rfl, ?_⟩, fun j => ⟨laneBit_or_next ⟨2 * j.val, by omega⟩, ?_⟩, fun o => rfl⟩
  · have hlane : i.rev.val = 3 - i.val := by rw [Fin.val_rev]; omega
    rw [← hlane]
    rfl
  · have hupper : (⟨2 * j.val + 1, by omega⟩ : Fin 4).rev = (⟨2 - 2 * j.val, by omega⟩ : Fin 3).castSucc :=
      Fin.ext (by simp only [Fin.val_rev, Fin.val_castSucc]; omega)
    have hlower : (⟨2 * j.val, by omega⟩ : Fin 4).rev = (⟨2 - 2 * j.val, by omega⟩ : Fin 3).succ :=
      Fin.ext (by simp only [Fin.val_rev, Fin.val_succ]; omega)
    simp only [spanMask, busLane, hupper, hlower]
    rw [BitVec.or_comm, laneBit_or_next]

/-! ### Unmapped offsets under `RAZ_WI` (20_memory.md R52) -/

theorem accessStep_of_unmapped_razWi {w : AccessWord} {s : State} (h : decode w = .error .unmapped)
    (hpolicy : s.params.unmappedPolicy = .razWi) :
    accessStep w s = .next (s.complete (if w.getLsbD 45 then .written else .rdata 0)) := by
  simp only [accessStep, h, unmappedAccess, hpolicy]
  rfl

/-- Settles O10: decode classifies the word as unmapped, and under `RAZ_WI` the access completes. -/
theorem unmappedReadsZeroWritesIgnored : Obligations.UnmappedReadsZeroWritesIgnored := by
  intro s x rest w hin hw hoff hpolicy
  have hdecode : decode w = .error .unmapped := (refusalReasonsByOffset w).2.mpr hoff
  calc step s = accessStep w { s with input := rest } := step_of_accessWord hin hw
    _ = _ := accessStep_of_unmapped_razWi hdecode hpolicy

end Sys2Proof.Machine
end

section
/-! SUPPORT. Proofs of the encoding family (30_encoding.md): the accesses by kind and register, decoding as the inverse
of encoding, the access map, and what a refusal changes. -/

namespace Sys2Proof

/-! ### The accesses by kind and register (R78) -/

/-- The access of a register: its write or its read. -/
def accessOf (write : Bool) (r : Reg) (be : ByteEnable) (wdata : Word) : Instr :=
  if write then writeOf r be wdata else readOf r be

/-- Every access is a read or a write of one register. -/
theorem Instr.eq_accessOf (i : Instr) : ∃ write r be wdata, i = accessOf write r be wdata := by
  cases i with
  | rdGpioData be => exact ⟨false, .gpioData, be, 0, rfl⟩
  | wrGpioData be v => exact ⟨true, .gpioData, be, v, rfl⟩
  | rdGpioTri be => exact ⟨false, .gpioTri, be, 0, rfl⟩
  | wrGpioTri be v => exact ⟨true, .gpioTri, be, v, rfl⟩
  | rdGpio2Data be => exact ⟨false, .gpio2Data, be, 0, rfl⟩
  | wrGpio2Data be v => exact ⟨true, .gpio2Data, be, v, rfl⟩
  | rdGpio2Tri be => exact ⟨false, .gpio2Tri, be, 0, rfl⟩
  | wrGpio2Tri be v => exact ⟨true, .gpio2Tri, be, v, rfl⟩
  | rdGier be => exact ⟨false, .gier, be, 0, rfl⟩
  | wrGier be v => exact ⟨true, .gier, be, v, rfl⟩
  | rdIpisr be => exact ⟨false, .ipisr, be, 0, rfl⟩
  | wrIpisr be v => exact ⟨true, .ipisr, be, v, rfl⟩
  | rdIpier be => exact ⟨false, .ipier, be, 0, rfl⟩
  | wrIpier be v => exact ⟨true, .ipier, be, v, rfl⟩

/-- An access's descriptor names its kind, its register's offset and its operands; a read's `WDATA` is 0 (R76). -/
theorem descriptor_accessOf (write : Bool) (r : Reg) (be : ByteEnable) (v : Word) :
    (accessOf write r be v).descriptor = ⟨write, r.offset, be, if write then v else 0⟩ := by
  cases write <;> cases r <;> rfl

/-- A read has no write value, so its own descriptor's `WDATA` selects the same access (R71). -/
theorem accessOf_ignores_read_wdata (write : Bool) (r : Reg) (be : ByteEnable) (v : Word) :
    accessOf write r be (if write then v else 0) = accessOf write r be v := by
  cases write <;> rfl

/-! ### Decoding (R77) -/

theorem regAt_eq_some_iff {off : Offset} {r : Reg} : regAt off = some r ↔ off = r.offset :=
  ⟨offset_of_regAt, fun h => h ▸ regAt_offset r⟩

/-- Every register's offset is word-aligned (20_memory.md R50, R57). -/
theorem Reg.offset_aligned (r : Reg) : r.offset.extractLsb' 0 2 = 0b00#2 := by
  cases r <;> decide

/-- A descriptor decodes exactly when its offset is a register's, and then to that register's access. -/
theorem decodeFields_ok_iff (d : Descriptor) (i : Instr) :
    decodeFields d = .ok i ↔ ∃ r : Reg, d.off = r.offset ∧ i = accessOf d.write r d.be d.wdata := by
  constructor
  · intro h
    unfold decodeFields at h
    split at h
    · split at h
      · next r hr => exact ⟨r, regAt_eq_some_iff.mp hr, by simpa [accessOf] using h.symm⟩
      · cases h
    · cases h
  · rintro ⟨r, hoff, rfl⟩
    rw [decodeFields, hoff, if_pos r.offset_aligned, regAt_offset]
    rfl

/-- Encoding packs a descriptor that names the access's own register, and decoding reads it back. -/
theorem decode_encode (i : Instr) : decode (encode i) = .ok i := by
  obtain ⟨write, r, be, v, rfl⟩ := i.eq_accessOf
  rw [decode, encode, Descriptor.ofWord_toWord, descriptor_accessOf, decodeFields_ok_iff]
  exact ⟨r, rfl, (accessOf_ignores_read_wdata write r be v).symm⟩

/-- Settles O1: every access decodes back, and none is ill-formed. -/
theorem encodedAccessDecodesToItself : Obligations.EncodedAccessDecodesToItself :=
  fun i _ => decode_encode i

/-- Masking off bits 31 to 0 clears a packed descriptor's `WDATA` and no other field (R71). -/
theorem Descriptor.toWord_clear_wdata (d : Descriptor) :
    d.toWord &&& 0x3FFF00000000 = { d with wdata := 0 }.toWord := by
  have hmask : ∀ j < 46, (0x3FFF00000000 : AccessWord).getLsbD j = decide (¬ j < 32) := by decide
  apply BitVec.eq_of_getLsbD_eq
  intro k hk
  rw [BitVec.getLsbD_and, Descriptor.toWord_getLsbD, Descriptor.toWord_getLsbD, hmask k hk]
  by_cases h : k < 32 <;> simp [h]

/-- Settles O2: the access keeps every field of the word but a read's `WDATA`, and packing the fields gives the word. -/
theorem decodedWordEncodesBack : Obligations.DecodedWordEncodesBack := by
  intro w i hdec
  obtain ⟨d, rfl⟩ : ∃ d : Descriptor, w = d.toWord := ⟨_, (Descriptor.toWord_ofWord w).symm⟩
  rw [decode, Descriptor.ofWord_toWord, decodeFields_ok_iff] at hdec
  obtain ⟨r, hoff, rfl⟩ := hdec
  rw [encode, descriptor_accessOf, ← hoff, Descriptor.toWord_clear_wdata, Descriptor.toWord_getLsbD]
  cases hwrite : d.write with
  | true => simp [← hwrite]
  | false => simp

/-! ### The access map (R78) -/

/-- A word's key is its `W` and `OFF` fields (R73). -/
theorem key_eq_append (w : AccessWord) :
    w.extractLsb' 36 10 = BitVec.ofBool (Descriptor.ofWord w).write ++ (Descriptor.ofWord w).off := by
  have hbit : BitVec.ofBool (w.getLsbD 45) = w.extractLsb' 45 1 := by
    ext i hi
    simp [show i = 0 by omega]
  calc w.extractLsb' 36 10 = w.extractLsb' 45 1 ++ w.extractLsb' 36 9 :=
        (BitVec.extractLsb'_append_extractLsb'_eq_extractLsb' (start₁ := 36) (len₁ := 9) rfl).symm
    _ = _ := congrArg (· ++ _) hbit.symm

end Sys2Proof

namespace Sys2Proof.Machine

open Sys2Proof

/-- The row of a register's read or write: its key `{W, OFF}` and its access. -/
def mapRow (write : Bool) (r : Reg) : MapRow :=
  ⟨BitVec.ofBool write ++ r.offset, accessOf write r⟩

/-- The seven registers in the order of the access map. -/
def mapRegs : List Reg :=
  [.gpioData, .gpioTri, .gpio2Data, .gpio2Tri, .gier, .ipisr, .ipier]

theorem mem_mapRegs (r : Reg) : r ∈ mapRegs := by
  cases r <;> decide

theorem accessMap_eq_flatMap : accessMap = mapRegs.flatMap fun r => [mapRow false r, mapRow true r] := rfl

/-- The access map holds the two rows of every register and no other. -/
theorem mem_accessMap_iff (row : MapRow) : row ∈ accessMap ↔ ∃ write r, row = mapRow write r := by
  simp [accessMap_eq_flatMap, mem_mapRegs, exists_or]

/-- A word has a row's key exactly when it has the row's kind and offset (R73). -/
theorem key_eq_mapRow_iff (w : AccessWord) (write : Bool) (r : Reg) :
    w.extractLsb' 36 10 = (mapRow write r).key ↔
      (Descriptor.ofWord w).write = write ∧ (Descriptor.ofWord w).off = r.offset := by
  rw [key_eq_append, mapRow]
  constructor
  · intro h
    have hbit := congrArg (BitVec.extractLsb' 9 1) h
    have hoff := congrArg (BitVec.extractLsb' 0 9) h
    rw [BitVec.extractLsb'_append_eq_left, BitVec.extractLsb'_append_eq_left] at hbit
    rw [BitVec.extractLsb'_append_eq_right, BitVec.extractLsb'_append_eq_right] at hoff
    exact ⟨BitVec.ofBool_eq_iff_eq.mp hbit, hoff⟩
  · rintro ⟨hwrite, hoff⟩
    rw [hwrite, hoff]

/-- Settles O3: both sides ask for a register at the word's offset, and for its access of the word's kind. -/
theorem accessMapDecidesEveryWord : Obligations.AccessMapDecidesEveryWord := by
  intro w i
  rw [decode, decodeFields_ok_iff]
  constructor
  · rintro ⟨r, hoff, rfl⟩
    exact ⟨mapRow _ r, (mem_accessMap_iff _).mpr ⟨_, r, rfl⟩, (key_eq_mapRow_iff w _ r).mpr ⟨rfl, hoff⟩, rfl⟩
  · rintro ⟨row, hrow, hkey, rfl⟩
    obtain ⟨write, r, rfl⟩ := (mem_accessMap_iff row).mp hrow
    obtain ⟨rfl, hoff⟩ := (key_eq_mapRow_iff w write r).mp hkey
    exact ⟨r, hoff, rfl⟩

/-! ### Printed descriptors (95_test_vectors.md P1 to P3) -/

/-- Settles O5: each printed word is the word of the access beside it. -/
theorem printedDescriptorsDecode : Obligations.PrintedDescriptorsDecode :=
  ⟨decode_encode (.wrGpioTri 0xF 0xFFFF0000), decode_encode (.wrGpioData 0x3 0x12345678),
    decode_encode (.rdGpioData 0x1), decode_encode (.wrGier 0xF 0x80000000), decode_encode (.rdIpisr 0xF),
    decode_encode (.wrGpio2Tri 0xF 0x000000FF), decode_encode (.wrIpisr 0xE 0x00000002),
    decode_encode (.wrIpier 0xF 0xFFFFFFFC)⟩

/-! ### Refusals (R80) -/

theorem accessStep_of_misaligned {w : AccessWord} (h : decode w = .error .misaligned) (s : State) :
    accessStep w s = .next (s.refuse .misaligned) := by
  simp [accessStep, h]

theorem accessStep_of_unmapped_refuse {w : AccessWord} {s : State} (h : decode w = .error .unmapped)
    (hpolicy : s.params.unmappedPolicy = .refuse) : accessStep w s = .next (s.refuse .unmapped) := by
  simp [accessStep, h, unmappedAccess, hpolicy]

@[simp] theorem State.toggleIf_refused (s : State) (c : Channel) (b : Bool) :
    (s.toggleIf c b).refused = s.refused := by
  cases b <;> simp [State.toggleStatus]

/-- No effect of an access touches the refused mark. -/
theorem AccessEffect.refused_eq {s u : State} (h : AccessEffect s u) : u.refused = s.refused := by
  cases h <;> simp [State.acknowledge, State.writeData, State.writeTri]

/-- A step keeps the refused mark, or sets it by a refusal. -/
theorem step_refused {s t : State} (h : step s = .next t) : t.refused = s.refused ∨ t.refused = true := by
  obtain ⟨-, ht⟩ | ⟨x, rest, w, -, -, ht⟩ | ⟨c, p, rest, -, ht⟩ := step_cases s
  · obtain rfl : s = t := by simpa [ht] using h
    exact .inl rfl
  · obtain ⟨r, rfl⟩ | ⟨u, r, hu, rfl, -⟩ := accessStep_effect (ht.symm.trans h)
    · exact .inr rfl
    · exact .inl hu.refused_eq
  · obtain ⟨-, rfl⟩ := pinStep_next (ht.symm.trans h)
    exact .inl (State.setData_refused _ c _)

/-- Settles O9: decode classifies the word by its offset, and only a refusal touches the mark, to set it. -/
theorem refusedAccessOnlySetsTheMark : Obligations.RefusedAccessOnlySetsTheMark := by
  refine ⟨fun s x rest w hin hw => ⟨fun hoff => ?_, fun hoff hpolicy => ?_⟩, fun s t hstep hclear => ?_⟩
  · exact (step_of_accessWord hin hw).trans (accessStep_of_misaligned ((refusalReasonsByOffset w).1.mpr hoff) _)
  · exact (step_of_accessWord hin hw).trans
      (accessStep_of_unmapped_refuse ((refusalReasonsByOffset w).2.mpr hoff) hpolicy)
  · obtain hsame | hset := step_refused hstep
    · exact hsame.symm.trans hclear
    · exact absurd (hset.symm.trans hclear) (by decide)

end Sys2Proof.Machine
end

section
/-! SUPPORT. Proofs of the access family (40_access_common.md): the writes of the interrupt registers under both
`CTRL_WRITE_MODE` values, what the mode changes, that every access completes, the tri-state writes and the plain
reads. -/

namespace Sys2Proof.Machine

open Sys2Proof

/-! ### The interrupt-register writes under both `CTRL_WRITE_MODE` values (R93, R94) -/

/-- A GIER write in one form for both modes: an unselected lane merges the stored bit, which assigns what is there. -/
theorem exec_wrGier (be : ByteEnable) (v : Word) (s : State) :
    exec (.wrGier be v) s =
      .next ((s.setGie (if be.getLsbD 3 then v.getLsbD 31 else s.gie)).complete .written) := by
  obtain ⟨-, hlane, hval⟩ | ⟨-, hlane, hval⟩ | ⟨-, hval⟩ := s.laneValueOf_cases .gier 3 be v
  · rw [exec_wrGier_none hval, hlane]
    rfl
  · rw [exec_wrGier_some hval, hlane]
    rfl
  · obtain ⟨-, -, hbit⟩ := merged_field_bits be (s.reg .gier) v
    have hstored : (s.reg .gier).getLsbD 31 = s.gie := topBitValue_bit31 s.gie
    rw [exec_wrGier_some hval, hbit, hstored]

/-- Settles O23: an unselected lane stores the bit that is there, or nothing. -/
theorem gierWriteStoresBit31 : Obligations.GierWriteStoresBit31 :=
  exec_wrGier

/-- An IPIER write in one form for both modes: an unselected lane merges the stored pair, which assigns what is there. -/
theorem exec_wrIpier (be : ByteEnable) (v : Word) (s : State) :
    exec (.wrIpier be v) s =
      .next ((s.setIer (if be.getLsbD 0 then v.getLsbD 0 else s.ch1.ier)
        (if be.getLsbD 0 then v.getLsbD 1 else s.ch2.ier)).complete .written) := by
  obtain ⟨-, hlane, hval⟩ | ⟨-, hlane, hval⟩ | ⟨-, hval⟩ := s.laneValueOf_cases .ipier 0 be v
  · rw [exec_wrIpier_none hval, hlane]
    rfl
  · rw [exec_wrIpier_some hval, hlane]
    rfl
  · obtain ⟨hbit0, hbit1, -⟩ := merged_field_bits be (s.reg .ipier) v
    obtain ⟨hstored0, hstored1⟩ : (s.reg .ipier).getLsbD 0 = s.ch1.ier ∧ (s.reg .ipier).getLsbD 1 = s.ch2.ier :=
      pairValue_bits s.ch1.ier s.ch2.ier
    rw [exec_wrIpier_some hval, hbit0, hbit1, hstored0, hstored1]

/-- Settles O25: an unselected lane stores the pair that is there, or nothing. -/
theorem ipierWriteAssignsBothBits : Obligations.IpierWriteAssignsBothBits :=
  exec_wrIpier

/-- Channel c's bit of the selector of an IPISR write: the written bit, or with lane 0 not selected 0 (`LANE_GATED`) or
the stored status bit (`MERGED`). -/
def State.ipisrSelector (s : State) (be : ByteEnable) (v : Word) (c : Channel) : Bool :=
  if be.getLsbD 0 then v.getLsbD (bitOf c) else (s.params.ctrlWriteMode = .merged && (s.chan c).isr)

/-- An IPISR write in one form for both modes. -/
theorem exec_wrIpisr (be : ByteEnable) (v : Word) (s : State) :
    exec (.wrIpisr be v) s =
      .next (((s.toggleIf .ch1 (s.ipisrSelector be v .ch1)).toggleIf .ch2 (s.ipisrSelector be v .ch2)).complete
        .written) := by
  unfold State.ipisrSelector
  obtain ⟨hmode, hlane, hval⟩ | ⟨-, hlane, hval⟩ | ⟨hmode, hval⟩ := s.laneValueOf_cases .ipisr 0 be v
  · rw [exec_wrIpisr_none hval, hlane, hmode]
    rfl
  · rw [exec_wrIpisr_some hval, hlane]
    rfl
  · obtain ⟨hbit0, hbit1, -⟩ := merged_field_bits be (s.reg .ipisr) v
    obtain ⟨hstored0, hstored1⟩ : (s.reg .ipisr).getLsbD 0 = s.ch1.isr ∧ (s.reg .ipisr).getLsbD 1 = s.ch2.isr :=
      pairValue_bits s.ch1.isr s.ch2.isr
    rw [exec_wrIpisr_some hval, hbit0, hbit1, hstored0, hstored1, hmode]
    rfl

/-- A selector bit at a status bit, as formulas: the bit toggles, and from CLEAR to SET the flag is set and one `raise`
is logged (41_interrupt_registers.md R111). -/
theorem State.toggleIf_eq (s : State) (c : Channel) (b : Bool) :
    s.toggleIf c b =
      { s with events := s.events ++ if b && !(s.chan c).isr then [(⟨targetOf c, .raise⟩ : Event)] else [] }.setChan c
        { s.chan c with
          isr := (s.chan c).isr ^^ b
          posted := (s.chan c).posted || (b && !(s.chan c).isr) } := by
  cases b with
  | false => cases c <;> simp [State.setChan]
  | true =>
    cases hisr : (s.chan c).isr <;>
      simp [State.toggleStatus, State.signal, ChannelState.toggleCalls, ChannelState.toggled, hisr]

/-- Settles O27: channel 1's selector bit at its status bit, then channel 2's. -/
theorem ipisrWriteTogglesSelectedBits : Obligations.IpisrWriteTogglesSelectedBits := by
  intro be v s
  rw [exec_wrIpisr, State.toggleIf_eq, State.toggleIf_eq]
  rfl

/-! ### What `CTRL_WRITE_MODE` changes (70_reset_and_hazards.md R200) -/

theorem State.toggleIf_withCtrlMode (s : State) (m : CtrlWriteMode) (c : Channel) (b : Bool) :
    (s.withCtrlMode m).toggleIf c b = (s.toggleIf c b).withCtrlMode m := by
  cases b <;> cases c <;> rfl

/-- An access that is no IPISR write with lane 0 not selected does the same under another mode. -/
theorem exec_withCtrlMode {i : Instr} {s t : State} (hi : ∀ be v, i = .wrIpisr be v → be.getLsbD 0 = true)
    (h : exec i s = .next t) (m : CtrlWriteMode) : exec i (s.withCtrlMode m) = .next (t.withCtrlMode m) := by
  cases i with
  | rdGpioData be | rdGpio2Data be | rdGpioTri be | rdGpio2Tri be | rdGier be | rdIpisr be | rdIpier be
  | wrGpioData be v | wrGpio2Data be v | wrGpioTri be v | wrGpio2Tri be v =>
    cases h
    rfl
  | wrGier be v =>
    rw [exec_wrGier] at h ⊢
    cases h
    rfl
  | wrIpier be v =>
    rw [exec_wrIpier] at h ⊢
    cases h
    rfl
  | wrIpisr be v =>
    rw [exec_wrIpisr_of_lane0 v _ (hi be v rfl)] at h ⊢
    cases h
    rw [State.toggleIf_withCtrlMode, State.toggleIf_withCtrlMode]
    rfl

theorem State.ipisrSelector_laneGated {s : State} {be : ByteEnable} (v : Word) (c : Channel)
    (hmode : s.params.ctrlWriteMode = .laneGated) (hlane : be.getLsbD 0 = false) :
    s.ipisrSelector be v c = false := by
  rw [State.ipisrSelector, hlane, hmode]
  rfl

theorem State.ipisrSelector_merged {s : State} {be : ByteEnable} (v : Word) (c : Channel)
    (hmode : s.params.ctrlWriteMode = .merged) (hlane : be.getLsbD 0 = false) :
    s.ipisrSelector be v c = (s.chan c).isr := by
  rw [State.ipisrSelector, hlane, hmode]
  rfl

/-- A status bit written back to itself is cleared with no call, flag kept (R198). -/
theorem State.toggleIf_stored (s : State) (c : Channel) :
    s.toggleIf c (s.chan c).isr = s.setChan c { s.chan c with isr := false } := by
  rw [State.toggleIf_eq]
  simp

/-- Settles O44: only the selector of an IPISR write with lane 0 not selected depends on the mode, being 0 or the stored
pair. -/
theorem ctrlWriteModesDifferOnlyAtIpisr : Obligations.CtrlWriteModesDifferOnlyAtIpisr := by
  refine ⟨fun i s t hi h => exec_withCtrlMode hi h .merged, fun be v s hlane => ⟨?_, ?_⟩⟩
  · rw [exec_wrIpisr, State.ipisrSelector_laneGated v .ch1 rfl hlane, State.ipisrSelector_laneGated v .ch2 rfl hlane]
    rfl
  · rw [exec_wrIpisr, State.ipisrSelector_merged v .ch1 rfl hlane, State.ipisrSelector_merged v .ch2 rfl hlane,
      State.toggleIf_stored]
    exact congrArg (fun u : State => Host.Outcome.next (u.complete .written)) (State.toggleIf_stored _ .ch2)

/-! ### Every access completes (R96) -/

/-- A write hands back nothing (30_encoding.md R72). -/
theorem exec_writeOf_result {r : Reg} {be : ByteEnable} {v : Word} {s t : State}
    (h : exec (writeOf r be v) s = .next t) : t.result = .written := by
  cases r with
  | gpioData | gpioTri | gpio2Data | gpio2Tri => cases h; rfl
  | gier => cases (exec_wrGier be v s).symm.trans h; rfl
  | ipisr => cases (exec_wrIpisr be v s).symm.trans h; rfl
  | ipier => cases (exec_wrIpier be v s).symm.trans h; rfl

/-- A read hands back a value (30_encoding.md R72). -/
theorem exec_readOf_result {r : Reg} {be : ByteEnable} {s t : State} (h : exec (readOf r be) s = .next t) :
    ∃ v, t.result = .rdata v := by
  cases r <;> cases h <;> exact ⟨_, rfl⟩

/-- A word at an offset of the register map decodes to the access of a register, of the word's kind
(20_memory.md R50, 30_encoding.md R78). -/
theorem decode_of_mapped {w : AccessWord}
    (h : offsetOf w ∈ [0x000, 0x004, 0x008, 0x00C, 0x11C, 0x120, 0x128]) :
    ∃ r be v, decode w = .ok (accessOf (w.getLsbD 45) r be v) := by
  have hreg : regAt (Descriptor.ofWord w).off ≠ none := fun hnone => (regAt_eq_none_iff _).mp hnone h
  obtain ⟨r, hr⟩ := Option.ne_none_iff_exists'.mp hreg
  exact ⟨r, _, _, (decodeFields_ok_iff _ _).mpr ⟨r, offset_of_regAt hr, rfl⟩⟩

/-- Settles O15: the word decodes to a register's access, which has one of the effects and completes. -/
theorem mappedAccessAlwaysCompletes : Obligations.MappedAccessAlwaysCompletes := by
  intro s x rest w hin hw hoff
  obtain ⟨r, be, v, hdecode⟩ := decode_of_mapped hoff
  obtain ⟨u, res, hu, hexec, -⟩ := exec_effect (accessOf (w.getLsbD 45) r be v) { s with input := rest }
  refine ⟨u.complete res, (stepRunsDecodedAccess s x rest w _ hin hw hdecode).trans hexec, ?_, hu.refused_eq, ?_, ?_⟩
  · rw [State.complete_pc, hu.pc_eq]
  · intro hwrite
    rw [hwrite] at hexec
    exact exec_writeOf_result hexec
  · intro hread
    rw [hread] at hexec
    exact exec_readOf_result hexec

/-- A host access has a next state, whether it is performed or refused (30_encoding.md R80). -/
theorem accessStep_next (w : AccessWord) (s : State) : ∃ t, accessStep w s = .next t := by
  obtain ⟨i, -, ht⟩ | ⟨-, ht⟩ | ⟨-, -, ht⟩ | ⟨-, -, ht⟩ := accessStep_cases (rfl : accessStep w s = _)
  · obtain ⟨u, r, -, hexec, -⟩ := exec_effect i s
    exact ⟨_, ht.trans hexec⟩
  · exact ⟨_, ht⟩
  · exact ⟨_, ht⟩
  · exact ⟨_, ht⟩

/-- Settles O16, by the kinds of step: idling and host accesses always have a next state. -/
theorem stepStopsOnlyAtAbsentPinUpdate : Obligations.StepStopsOnlyAtAbsentPinUpdate := by
  intro s
  obtain ⟨-, ht⟩ | ⟨x, rest, w, -, -, ht⟩ | ⟨c, p, rest, hin, ht⟩ := step_cases s
  · exact .inl ⟨s, ht⟩
  · exact .inl (ht ▸ accessStep_next w _)
  · rw [ht, pinStep]
    cases hpins : s.params.extPinUpdate with
    | inputBits => exact .inl ⟨_, rfl⟩
    | absent => exact .inr ⟨rfl, rfl, c, p, rest, hin⟩

/-! ### Tri-state writes and plain reads (R90, R92) -/

/-- Settles O22: a tri-state write is the default write of R90 and completes. -/
theorem triStateWriteStoresSelectedLanes : Obligations.TriStateWriteStoresSelectedLanes :=
  fun be v s => ⟨exec_wrGpioTri be v s, exec_wrGpio2Tri be v s⟩

/-- A read without a side effect does nothing but complete (R92). -/
theorem exec_plainRead {i : Instr} {be : ByteEnable}
    (h : i ∈ [.rdGier be, .rdIpier be, .rdIpisr be, .rdGpioTri be, .rdGpio2Tri be]) (s : State) :
    ∃ r, exec i s = .next (s.complete r) := by
  simp only [List.mem_cons, List.not_mem_nil, or_false] at h
  rcases h with rfl | rfl | rfl | rfl | rfl <;> exact ⟨_, rfl⟩

/-- Settles O29: completing an access changes only the access index and the result. -/
theorem plainReadFrame : Obligations.PlainReadFrame := by
  intro i be s t hi hexec
  obtain ⟨r, hr⟩ := exec_plainRead hi s
  obtain rfl : s.complete r = t := by simpa [hr] using hexec
  exact ⟨s.complete_reg r, fun c => by rw [State.complete_chan], rfl, rfl, rfl, rfl⟩

end Sys2Proof.Machine
end

section
/-! SUPPORT. Proofs of the interrupt-register family (41_interrupt_registers.md): the writes of GIER, IPIER and IPISR,
what they leave alone, and the plain reads. -/

namespace Sys2Proof.Machine

open Sys2Proof

/-! ### The values of the interrupt registers (10_state.md R27, R29, R31) -/

theorem topBitValue_eq_ite (b : Bool) : topBitValue b = if b then 0x80000000 else 0 := by
  cases b <;> decide

theorem pairValue_eq_or (b0 b1 : Bool) : pairValue b0 b1 = (if b0 then 1 else 0) ||| (if b1 then 2 else 0) := by
  cases b0 <;> cases b1 <;> decide

/-- GIER built from bit 31 of a value is that value with every other bit 0. -/
theorem topBitValue_getLsbD (v : Word) : topBitValue (v.getLsbD 31) = v &&& 0x80000000 :=
  (topBitValue_eq_ite _).trans (BitVec.and_twoPow v 31).symm

/-- IPIER or IPISR built from bits 0 and 1 of a value is that value with every other bit 0. -/
theorem pairValue_getLsbD (v : Word) : pairValue (v.getLsbD 0) (v.getLsbD 1) = v &&& 0b11 :=
  calc pairValue (v.getLsbD 0) (v.getLsbD 1)
    _ = (if v.getLsbD 0 then 1 else 0) ||| (if v.getLsbD 1 then 2 else 0) := pairValue_eq_or _ _
    _ = (v &&& 0b01) ||| (v &&& 0b10) :=
        congrArg₂ (· ||| ·) (BitVec.and_twoPow v 0).symm (BitVec.and_twoPow v 1).symm
    _ = v &&& 0b11 := BitVec.and_or_distrib_left.symm

/-! ### The one register each write changes (R100, R103, R104, R111) -/

theorem State.reg_setGie {q : Reg} (h : q ≠ .gier) (s : State) (b : Bool) : (s.setGie b).reg q = s.reg q := by
  cases q with
  | gier => exact absurd rfl h
  | gpioData | gpioTri | gpio2Data | gpio2Tri | ipisr | ipier => rfl

theorem State.reg_setIer {q : Reg} (h : q ≠ .ipier) (s : State) (b1 b2 : Bool) :
    (s.setIer b1 b2).reg q = s.reg q := by
  cases q with
  | ipier => exact absurd rfl h
  | gpioData | gpioTri | gpio2Data | gpio2Tri | gier | ipisr => rfl

theorem State.reg_toggleIf {q : Reg} (h : q ≠ .ipisr) (s : State) (c : Channel) (b : Bool) :
    (s.toggleIf c b).reg q = s.reg q := by
  rw [State.toggleIf_eq]
  cases q with
  | ipisr => exact absurd rfl h
  | gpioData | gpioTri | gpio2Data | gpio2Tri | gier | ipier => cases c <;> rfl

/-- A bit written to a status bit never clears a posted flag (R111). -/
theorem State.posted_toggleIf {s : State} {d : Channel} (h : (s.chan d).posted = true) (c : Channel) (b : Bool) :
    ((s.toggleIf c b).chan d).posted = true := by
  rw [State.chan_toggleIf]
  split <;> simp [h]

/-- Settles O32, by the register written: `setGie`, `setIer`, or the two toggles of an IPISR write. -/
theorem interruptWriteFrame : Obligations.InterruptWriteFrame := by
  intro be v s t i r hi hexec
  simp only [List.mem_cons, Prod.mk.injEq, List.not_mem_nil, or_false] at hi
  obtain ⟨rfl, rfl⟩ | ⟨rfl, rfl⟩ | ⟨rfl, rfl⟩ := hi
  case inl =>
    cases (exec_wrGier be v s).symm.trans hexec
    refine ⟨fun q hq => ?_, fun _ => ⟨fun c => ?_, rfl⟩, fun c hc => ?_, rfl, rfl, rfl⟩
    · rw [State.complete_reg, State.reg_setGie hq]
    · rw [State.complete_chan, State.setGie_chan]
    · rwa [State.complete_chan, State.setGie_chan]
  case inr.inl =>
    cases (exec_wrIpier be v s).symm.trans hexec
    refine ⟨fun q hq => ?_, fun _ => ⟨fun c => ?_, rfl⟩, fun c hc => ?_, rfl, rfl, rfl⟩
    · rw [State.complete_reg, State.reg_setIer hq]
    · rw [State.complete_chan, State.chan_setIer_posted]
    · rwa [State.complete_chan, State.chan_setIer_posted]
  case inr.inr =>
    cases (exec_wrIpisr be v s).symm.trans hexec
    refine ⟨fun q hq => ?_, fun hne => absurd rfl hne, fun c hc => ?_, ?_⟩
    · rw [State.complete_reg, State.reg_toggleIf hq, State.reg_toggleIf hq]
    · rw [State.complete_chan]
      exact State.posted_toggleIf (State.posted_toggleIf hc _ _) _ _
    · simp

/-! ### Full-width writes (R100, R103, R107, R108) -/

/-- Settles O24: bit 31 of the written value is stored, and the frame of O32 holds. -/
theorem fullGierWriteForcesReservedBitsToZero : Obligations.FullGierWriteForcesReservedBitsToZero := by
  intro v s
  have hexec := exec_wrGier 0xF v s
  obtain ⟨hreg, hother, -⟩ := interruptWriteFrame 0xF v s _ _ .gier (by simp) hexec
  obtain ⟨hposted, hevents⟩ := hother nofun
  exact ⟨_, hexec, topBitValue_getLsbD v, hreg, hposted .ch1, hposted .ch2, hevents⟩

/-- Settles O26: bits 0 and 1 of the written value are stored, and the frame of O32 holds. -/
theorem fullIpierWriteReplacesThePair : Obligations.FullIpierWriteReplacesThePair := by
  intro v s
  have hexec := exec_wrIpier 0xF v s
  obtain ⟨hreg, hother, -⟩ := interruptWriteFrame 0xF v s _ _ .ipier (by simp) hexec
  obtain ⟨hposted, hevents⟩ := hother nofun
  exact ⟨_, hexec, pairValue_getLsbD v, rfl, rfl, hreg, hposted, hevents⟩

theorem ChannelState.toggled_of_set {x : ChannelState} (h : x.isr = true) : x.toggled = { x with isr := false } :=
  if_pos h

theorem ChannelState.toggled_of_clear {x : ChannelState} (h : x.isr = false) :
    x.toggled = { x with isr := true, posted := true } :=
  if_neg (Bool.not_eq_true _ ▸ h)

theorem ChannelState.toggleCalls_of_set {x : ChannelState} (h : x.isr = true) : x.toggleCalls = [] :=
  if_pos h

theorem ChannelState.toggleCalls_of_clear {x : ChannelState} (h : x.isr = false) : x.toggleCalls = [.raise] :=
  if_neg (Bool.not_eq_true _ ▸ h)

/-- Settles O28: the selector bit decides whether the channel toggles, its own status bit what the toggle does. -/
theorem fullIpisrWriteTogglesEachChannelAlone : Obligations.FullIpisrWriteTogglesEachChannelAlone := by
  intro v s
  obtain ⟨t, hexec, heffect⟩ := exec_wrIpisr_channel v s (be := 0xF) rfl
  refine ⟨t, hexec, fun c => ?_⟩
  obtain ⟨hchan, hcalls⟩ := heffect c
  refine ⟨fun hsel => ?_, fun hsel hset => ?_, fun hsel hclear => ?_⟩
  · simpa [hsel] using And.intro hchan hcalls
  · simpa [hsel, ChannelState.toggled_of_set hset, ChannelState.toggleCalls_of_set hset] using And.intro hchan hcalls
  · simpa [hsel, ChannelState.toggled_of_clear hclear, ChannelState.toggleCalls_of_clear hclear] using
      And.intro hchan hcalls

/-! ### Plain reads (R101, R105, R110; 42_channel_registers.md R136, R143) -/

/-- Settles O17: each read completes with its register under the mask, interrupt registers built from their fields. -/
theorem plainReadsReturnTheRegister : Obligations.PlainReadsReturnTheRegister := by
  intro be s
  rw [← topBitValue_eq_ite, ← pairValue_eq_or, ← pairValue_eq_or]
  exact ⟨exec_rdGier be s, exec_rdIpier be s, exec_rdIpisr be s, exec_rdGpioTri be s, exec_rdGpio2Tri be s⟩

end Sys2Proof.Machine
end

section
/-! SUPPORT. Proofs of the channel-register family (42_channel_registers.md): the reads and writes of the data and
tri-state registers, what they leave alone, that the channels share no state, the two readings of a data write, and the
pin update. -/

namespace Sys2Proof.Machine

open Sys2Proof

/-! ### The accesses of one channel -/

/-- Channel c's data register. -/
def dataReg (c : Channel) : Reg :=
  match c with
  | .ch1 => .gpioData
  | .ch2 => .gpio2Data

/-- Channel c's tri-state register. -/
def triReg (c : Channel) : Reg :=
  match c with
  | .ch1 => .gpioTri
  | .ch2 => .gpio2Tri

/-- `exec_dataRead` with the value read named. -/
theorem exec_dataRead_eq (c : Channel) (be : ByteEnable) (s : State) :
    exec (dataRead c be) s = .next ((s.acknowledge c).finishRead (dataReg c) be) := by
  cases c <;> rfl

theorem exec_dataWriteOf (c : Channel) (be : ByteEnable) (v : Word) (s : State) :
    exec (dataWriteOf c be v) s = .next ((s.writeData c be v).complete .written) := by
  cases c <;> rfl

theorem exec_readOf_triReg (c : Channel) (be : ByteEnable) (s : State) :
    exec (readOf (triReg c) be) s = .next (s.finishRead (triReg c) be) := by
  cases c <;> rfl

theorem exec_writeOf_triReg (c : Channel) (be : ByteEnable) (v : Word) (s : State) :
    exec (writeOf (triReg c) be v) s = .next ((s.writeTri c be v).complete .written) := by
  cases c <;> rfl

/-! ### Data-register reads (R131, R132, R139) -/

/-- An acknowledge of a channel as formulas. -/
theorem ChannelState.acknowledged_eq (x : ChannelState) :
    x.acknowledged = { x with isr := false, posted := x.posted && !x.isr } := by
  obtain ⟨data, tri, ier, isr, posted⟩ := x
  cases isr <;> simp [ChannelState.acknowledged]

/-- An acknowledge as formulas: the status bit is cleared, and from SET the posted flag too, with one `lower`. -/
theorem State.acknowledge_eq (s : State) (c : Channel) :
    s.acknowledge c =
      { s with events := s.events ++ if (s.chan c).isr then [(⟨targetOf c, .lower⟩ : Event)] else [] }.setChan c
        { s.chan c with isr := false, posted := (s.chan c).posted && !(s.chan c).isr } := by
  rw [State.acknowledge, ChannelState.acknowledged_eq, State.signal, ChannelState.acknowledgeCalls,
    apply_ite (List.map _)]
  rfl

/-- Settles O18: the acknowledge as formulas, then the register under the mask. -/
theorem dataReadAcknowledgesAndReturns : Obligations.DataReadAcknowledgesAndReturns := by
  intro be s
  rw [exec_rdGpioData, exec_rdGpio2Data, State.acknowledge_eq, State.acknowledge_eq]
  exact ⟨rfl, rfl⟩

/-- Among the registers an acknowledge changes IPISR alone. -/
theorem State.reg_acknowledge {q : Reg} (h : q ≠ .ipisr) (s : State) (c : Channel) :
    (s.acknowledge c).reg q = s.reg q := by
  rw [State.acknowledge_eq]
  cases q with
  | ipisr => exact absurd rfl h
  | gpioData | gpioTri | gpio2Data | gpio2Tri | gier | ipier => cases c <;> rfl

/-- Settles O30: the read is an acknowledge, which keeps to its own channel and target, and completes. -/
theorem dataReadFrame : Obligations.DataReadFrame := by
  intro c be s t hexec
  cases (exec_dataRead_eq c be s).symm.trans hexec
  obtain ⟨-, hother, hcalls, hparams, -, -, hrefused, -, hinput⟩ := s.acknowledge_spec c
  refine ⟨fun q hq => ?_, fun d hd => ⟨?_, ?_⟩, hrefused, hparams, hinput⟩
  · rw [State.finishRead, State.complete_reg, State.reg_acknowledge hq]
  · rw [State.finishRead, State.complete_chan, hother d hd]
  · rw [State.finishRead, State.complete_events, hcalls d, if_neg (Ne.symm hd), List.append_nil]

/-! ### Channel-register writes (R133, R137, R141, R144) -/

theorem State.reg_setData {q : Reg} {c : Channel} (h : q ≠ dataReg c) (s : State) (v : Word) :
    (s.setData c v).reg q = s.reg q := by
  cases c with
  | ch1 => cases q with
    | gpioData => exact absurd rfl h
    | gpioTri | gpio2Data | gpio2Tri | gier | ipisr | ipier => rfl
  | ch2 => cases q with
    | gpio2Data => exact absurd rfl h
    | gpioData | gpioTri | gpio2Tri | gier | ipisr | ipier => rfl

theorem State.reg_setTri {q : Reg} {c : Channel} (h : q ≠ triReg c) (s : State) (v : Word) :
    (s.setTri c v).reg q = s.reg q := by
  cases c with
  | ch1 => cases q with
    | gpioTri => exact absurd rfl h
    | gpioData | gpio2Data | gpio2Tri | gier | ipisr | ipier => rfl
  | ch2 => cases q with
    | gpio2Tri => exact absurd rfl h
    | gpioData | gpioTri | gpio2Data | gier | ipisr | ipier => rfl

/-- Settles O31, by the register written: `setData` or `setTri`, and completion. -/
theorem channelWriteFrame : Obligations.ChannelWriteFrame := by
  intro be v s t i r hi hexec
  obtain ⟨c, rfl, rfl⟩ | ⟨c, rfl, rfl⟩ :
      (∃ c, i = dataWriteOf c be v ∧ r = dataReg c) ∨ (∃ c, i = writeOf (triReg c) be v ∧ r = triReg c) := by
    simp only [List.mem_cons, Prod.mk.injEq, List.not_mem_nil, or_false] at hi
    obtain ⟨rfl, rfl⟩ | ⟨rfl, rfl⟩ | ⟨rfl, rfl⟩ | ⟨rfl, rfl⟩ := hi
    exacts [.inl ⟨.ch1, rfl, rfl⟩, .inr ⟨.ch1, rfl, rfl⟩, .inl ⟨.ch2, rfl, rfl⟩, .inr ⟨.ch2, rfl, rfl⟩]
  · cases (exec_dataWriteOf c be v s).symm.trans hexec
    exact ⟨fun q hq => State.reg_setData hq s _, by simp [State.writeData]⟩
  · cases (exec_writeOf_triReg c be v s).symm.trans hexec
    exact ⟨fun q hq => State.reg_setTri hq s _, by simp [State.writeTri]⟩

/-- Settles O19: the stored value is R133's under `PRESERVE`. -/
theorem dataWriteUnderPreserve : Obligations.DataWriteUnderPreserve := by
  intro be v s hmode
  rw [exec_wrGpioData, exec_wrGpio2Data, State.writeData, State.writeData, hmode]
  exact ⟨rfl, rfl⟩

/-- Settles O20: the stored value is R133's under `CLEAR`. -/
theorem dataWriteUnderClear : Obligations.DataWriteUnderClear := by
  intro be v s hmode
  rw [exec_wrGpioData, exec_wrGpio2Data, State.writeData, State.writeData, hmode]
  exact ⟨rfl, rfl⟩

/-! ### A data write bit by bit (R134) -/

theorem dataWrite_preserve_getLsbD (be : ByteEnable) (tri old new : Word) {k : Nat} (h : k < 32) :
    (dataWrite .preserve be tri old new).getLsbD k =
      if be.getLsbD (k / 8) && !tri.getLsbD k then new.getLsbD k else old.getLsbD k := by
  rw [dataWrite, merge_getLsbD, outputMask_getLsbD be tri h, byteEnableMaskSelectsLanes be k h]

theorem dataWrite_clear_getLsbD (be : ByteEnable) (tri old new : Word) {k : Nat} (h : k < 32) :
    (dataWrite .clear be tri old new).getLsbD k =
      if be.getLsbD (k / 8) then new.getLsbD k && !tri.getLsbD k else old.getLsbD k := by
  simp only [dataWrite, BitVec.getLsbD_or, BitVec.getLsbD_and, BitVec.getLsbD_not, outputMask_getLsbD be tri h,
    byteEnableMaskSelectsLanes be k h, h]
  cases be.getLsbD (k / 8) <;> simp

/-- Settles O21, by the reading, the bit's lane and the bit's direction. -/
theorem dataWriteBitByBit : Obligations.DataWriteBitByBit := by
  intro c be v s
  refine ⟨_, exec_dataWriteOf c be v s, fun k hk => ?_⟩
  rw [State.complete_chan, State.writeData, State.chan_setData_self]
  cases s.params.dataWriteInputBits with
  | preserve =>
    rw [dataWrite_preserve_getLsbD be _ _ v hk]
    cases be.getLsbD (k / 8) <;> cases (s.chan c).tri.getLsbD k <;> rfl
  | clear =>
    rw [dataWrite_clear_getLsbD be _ _ v hk]
    cases be.getLsbD (k / 8) <;> cases (s.chan c).tri.getLsbD k <;> simp

/-! ### Where the two readings agree (R134) -/

/-- With no input bit 1 both readings store the same value: the one keeps a 0 where the other writes a 0. -/
theorem dataWrite_of_clear_inputs {tri old : Word} (h : old &&& tri = 0) (m m' : DataWriteInputBits)
    (be : ByteEnable) (new : Word) : dataWrite m be tri old new = dataWrite m' be tri old new := by
  have hagree : dataWrite .preserve be tri old new = dataWrite .clear be tri old new := by
    apply BitVec.eq_of_getLsbD_eq
    intro k hk
    have hbit : (old.getLsbD k && tri.getLsbD k) = false := by
      rw [← BitVec.getLsbD_and, h]
      exact BitVec.getLsbD_zero
    rw [dataWrite_preserve_getLsbD be tri old new hk, dataWrite_clear_getLsbD be tri old new hk]
    cases htri : tri.getLsbD k with
    | false => simp
    | true =>
      rw [htri, Bool.and_true] at hbit
      simp [hbit]
  cases m <;> cases m'
  exacts [rfl, hagree, hagree.symm, rfl]

theorem State.writeData_withInputBits {s : State} {c : Channel} (h : (s.chan c).data &&& (s.chan c).tri = 0)
    (m : DataWriteInputBits) (be : ByteEnable) (v : Word) :
    (s.withInputBits m).writeData c be v = (s.writeData c be v).withInputBits m := by
  rw [State.writeData, State.writeData, dataWrite_of_clear_inputs h s.params.dataWriteInputBits m]
  cases c <;> rfl

theorem State.toggleIf_withInputBits (s : State) (m : DataWriteInputBits) (c : Channel) (b : Bool) :
    (s.withInputBits m).toggleIf c b = (s.toggleIf c b).withInputBits m := by
  cases b <;> cases c <;> rfl

/-- From a state with no input bit 1 every access does the same under another reading. -/
theorem exec_withInputBits {i : Instr} {s t : State} (hclear : ∀ c, (s.chan c).data &&& (s.chan c).tri = 0)
    (h : exec i s = .next t) (m : DataWriteInputBits) : exec i (s.withInputBits m) = .next (t.withInputBits m) := by
  cases i with
  | rdGpioData be | rdGpio2Data be | rdGpioTri be | rdGpio2Tri be | rdGier be | rdIpisr be | rdIpier be
  | wrGpioTri be v | wrGpio2Tri be v =>
    cases h
    rfl
  | wrGpioData be v =>
    cases h
    rw [exec_wrGpioData, State.writeData_withInputBits (hclear .ch1)]
    rfl
  | wrGpio2Data be v =>
    cases h
    rw [exec_wrGpio2Data, State.writeData_withInputBits (hclear .ch2)]
    rfl
  | wrGier be v =>
    rw [exec_wrGier] at h ⊢
    cases h
    rfl
  | wrIpier be v =>
    rw [exec_wrIpier] at h ⊢
    cases h
    rfl
  | wrIpisr be v =>
    rw [exec_wrIpisr] at h ⊢
    cases h
    rw [State.toggleIf_withInputBits, State.toggleIf_withInputBits]
    rfl

/-- Settles O45: only the data writes read the parameter, and they store the same value where no input bit is 1. -/
theorem inputBitReadingsAgreeOnClearInputs : Obligations.InputBitReadingsAgreeOnClearInputs := by
  intro i s t h1 h2 h
  have hclear (c : Channel) : (s.chan c).data &&& (s.chan c).tri = 0 := by cases c; exacts [h1, h2]
  exact exec_withInputBits (s := s.withInputBits .preserve) hclear h .clear

/-! ### The channels share no state (R145) -/

theorem State.setChan_comm {c d : Channel} (h : d ≠ c) (s : State) (x y : ChannelState) :
    (s.setChan d y).setChan c x = (s.setChan c x).setChan d y := by
  cases c <;> cases d
  exacts [absurd rfl h, rfl, rfl, absurd rfl h]

theorem State.complete_setChan (s : State) (d : Channel) (y : ChannelState) (r : Result) :
    (s.setChan d y).complete r = (s.complete r).setChan d y := by
  cases d <;> rfl

theorem State.signal_setChan (s : State) (c d : Channel) (y : ChannelState) (k : List Call) :
    (s.setChan d y).signal c k = (s.signal c k).setChan d y := by
  cases d <;> rfl

theorem State.acknowledge_setChan {c d : Channel} (h : d ≠ c) (s : State) (y : ChannelState) :
    (s.setChan d y).acknowledge c = (s.acknowledge c).setChan d y := by
  rw [State.acknowledge, State.chan_setChan_ne s h.symm, State.signal_setChan, State.setChan_comm h]
  rfl

theorem State.writeData_setChan {c d : Channel} (h : d ≠ c) (s : State) (y : ChannelState) (be : ByteEnable)
    (v : Word) : (s.setChan d y).writeData c be v = (s.writeData c be v).setChan d y := by
  rw [State.writeData, State.setData, State.chan_setChan_ne s h.symm, State.setChan_params, State.setChan_comm h]
  rfl

theorem State.writeTri_setChan {c d : Channel} (h : d ≠ c) (s : State) (y : ChannelState) (be : ByteEnable)
    (v : Word) : (s.setChan d y).writeTri c be v = (s.writeTri c be v).setChan d y := by
  rw [State.writeTri, State.setTri, State.chan_setChan_ne s h.symm, State.setChan_comm h]
  rfl

/-- A channel's data and tri-state registers read its own state alone. -/
theorem State.reg_setChan_ne {c d : Channel} (h : d ≠ c) (s : State) (y : ChannelState) :
    (s.setChan d y).reg (dataReg c) = s.reg (dataReg c) ∧ (s.setChan d y).reg (triReg c) = s.reg (triReg c) := by
  cases c <;> cases d
  exacts [absurd rfl h, ⟨rfl, rfl⟩, ⟨rfl, rfl⟩, absurd rfl h]

/-- The four accesses of channel c. -/
inductive ChannelAccess (c : Channel) : Instr → Prop where
  | dataRead (be : ByteEnable) : ChannelAccess c (dataRead c be)
  | dataWrite (be : ByteEnable) (v : Word) : ChannelAccess c (dataWriteOf c be v)
  | triRead (be : ByteEnable) : ChannelAccess c (readOf (triReg c) be)
  | triWrite (be : ByteEnable) (v : Word) : ChannelAccess c (writeOf (triReg c) be v)

theorem ChannelAccess.of_mem {c : Channel} {i : Instr} {be : ByteEnable} {v : Word}
    (h : i ∈ [Machine.dataRead c be, dataWriteOf c be v, readOf (triReg c) be, writeOf (triReg c) be v]) :
    ChannelAccess c i := by
  simp only [List.mem_cons, List.not_mem_nil, or_false] at h
  obtain rfl | rfl | rfl | rfl := h
  exacts [.dataRead be, .dataWrite be v, .triRead be, .triWrite be v]

/-- A channel access leaves another channel and its target's calls alone. -/
theorem ChannelAccess.frame {c d : Channel} {i : Instr} {s t : State} (hi : ChannelAccess c i) (hd : d ≠ c)
    (h : exec i s = .next t) :
    t.chan d = s.chan d ∧ callsOn t.events (targetOf d) = callsOn s.events (targetOf d) := by
  cases hi with
  | dataRead be =>
    obtain ⟨-, hother, -⟩ := dataReadFrame c be s t h
    exact hother d hd
  | dataWrite be v =>
    cases (exec_dataWriteOf c be v s).symm.trans h
    simp [State.writeData, State.chan_setData_ne s hd]
  | triRead be =>
    cases (exec_readOf_triReg c be s).symm.trans h
    simp [State.finishRead]
  | triWrite be v =>
    cases (exec_writeOf_triReg c be v s).symm.trans h
    simp [State.writeTri, State.chan_setTri_ne s hd]

/-- A channel access does the same to everything else when another channel's state is replaced. -/
theorem ChannelAccess.exec_setChan {c d : Channel} {i : Instr} {s t : State} (hi : ChannelAccess c i) (hd : d ≠ c)
    (h : exec i s = .next t) (y : ChannelState) : exec i (s.setChan d y) = .next (t.setChan d y) := by
  cases hi with
  | dataRead be =>
    obtain ⟨hreg, -⟩ := State.reg_setChan_ne hd (s.acknowledge c) y
    cases (exec_dataRead_eq c be s).symm.trans h
    rw [exec_dataRead_eq, State.acknowledge_setChan hd, State.finishRead, hreg, State.complete_setChan]
    rfl
  | dataWrite be v =>
    cases (exec_dataWriteOf c be v s).symm.trans h
    rw [exec_dataWriteOf, State.writeData_setChan hd, State.complete_setChan]
  | triRead be =>
    obtain ⟨-, hreg⟩ := State.reg_setChan_ne hd s y
    cases (exec_readOf_triReg c be s).symm.trans h
    rw [exec_readOf_triReg, State.finishRead, hreg, State.complete_setChan]
    rfl
  | triWrite be v =>
    cases (exec_writeOf_triReg c be v s).symm.trans h
    rw [exec_writeOf_triReg, State.writeTri_setChan hd, State.complete_setChan]

/-- A channel access neither changes nor depends on another channel. -/
theorem ChannelAccess.noninterference {c d : Channel} {i : Instr} {s t : State} (hi : ChannelAccess c i) (hd : d ≠ c)
    (h : exec i s = .next t) (y : ChannelState) :
    t.chan d = s.chan d ∧ callsOn t.events (targetOf d) = callsOn s.events (targetOf d) ∧
      exec i (s.setChan d y) = .next (t.setChan d y) := by
  obtain ⟨hchan, hcalls⟩ := hi.frame hd h
  exact ⟨hchan, hcalls, hi.exec_setChan hd h y⟩

/-- Settles O43: the two lists are the four accesses of each channel. -/
theorem channelsShareNoState : Obligations.ChannelsShareNoState :=
  ⟨fun _ be v _ _ other hi h =>
      (ChannelAccess.of_mem (c := .ch1) (be := be) (v := v) hi).noninterference (d := .ch2) nofun h other,
    fun _ be v _ _ other hi h =>
      (ChannelAccess.of_mem (c := .ch2) (be := be) (v := v) hi).noninterference (d := .ch1) nofun h other⟩

/-! ### Pin updates (R146, R147) -/

theorem pinStep_of_inputBits {s : State} (h : s.params.extPinUpdate = .inputBits) (c : Channel) (p : Word) :
    pinStep c p s = .next (s.pinUpdate c p) := by
  rw [pinStep, h]

theorem pinStep_of_absent {s : State} (h : s.params.extPinUpdate = .absent) (c : Channel) (p : Word) :
    pinStep c p s = .refused .noPinUpdateStep := by
  rw [pinStep, h]

/-- Settles O11: the step performs the pin update, by R146's formula or, under `NONE`, not at all. -/
theorem pinUpdateChangesInputBitsOnly : Obligations.PinUpdateChangesInputBitsOnly := by
  refine fun s rest p => ⟨fun hpins => ⟨fun hin => ?_, fun hin => ?_⟩, fun hpins c hin => ?_⟩
  · exact (step_of_input hin).trans (pinStep_of_inputBits (s := { s with input := rest }) hpins .ch1 p)
  · exact (step_of_input hin).trans (pinStep_of_inputBits (s := { s with input := rest }) hpins .ch2 p)
  · exact (step_of_input hin).trans (pinStep_of_absent (s := { s with input := rest }) hpins c p)

end Sys2Proof.Machine
end

section
/-! SUPPORT. Proofs of the exceptions family (60_exceptions.md): the status-bit state machine of each channel, its
phases, and the calls one access makes. -/

namespace Sys2Proof.Machine

open Sys2Proof

/-- Settles O12: with nothing to take off the list the step idles. -/
theorem idleStepChangesNothing : Obligations.IdleStepChangesNothing := by
  intro s hin
  rw [step, State.takeInput_nil hin]
  rfl

/-! ### A channel's status: its bit, its posted flag and the calls on its target -/

/-- `t` has channel c's status bit and posted flag as in `s`, and the calls on its target as in `s`. -/
structure State.SameStatus (s t : State) (c : Channel) : Prop where
  isr : (t.chan c).isr = (s.chan c).isr
  posted : (t.chan c).posted = (s.chan c).posted
  calls : callsOn t.events (targetOf c) = callsOn s.events (targetOf c)

theorem State.SameStatus.of_chan_eq {s t : State} {c : Channel} (hchan : t.chan c = s.chan c)
    (hcalls : callsOn t.events (targetOf c) = callsOn s.events (targetOf c)) : s.SameStatus t c :=
  ⟨by rw [hchan], by rw [hchan], hcalls⟩

theorem State.SameStatus.trans {s t u : State} {c : Channel} (h : s.SameStatus t c) (h' : t.SameStatus u c) :
    s.SameStatus u c :=
  ⟨h'.isr.trans h.isr, h'.posted.trans h.posted, h'.calls.trans h.calls⟩

/-- Completing an access leaves every channel's status. -/
theorem State.sameStatus_complete (s : State) (r : Result) (c : Channel) : s.SameStatus (s.complete r) c :=
  .of_chan_eq (s.complete_chan r c) rfl

/-- A refusal leaves every channel's status (30_encoding.md R80). -/
theorem State.sameStatus_refuse (s : State) (r : RefuseReason) (c : Channel) : s.SameStatus (s.refuse r) c :=
  .of_chan_eq (s.refuse_chan r c) rfl

/-- A pin update leaves every channel's status (42_channel_registers.md R147). -/
theorem State.sameStatus_pinUpdate (s : State) (d : Channel) (p : Word) (c : Channel) :
    s.SameStatus (s.pinUpdate d p) c :=
  ⟨State.chan_setData_isr s d c _, State.chan_setData_posted s d c _, by rw [State.pinUpdate, State.setData_events]⟩

theorem State.toggleStatus_isr (s : State) (c : Channel) : ((s.toggleStatus c).chan c).isr = !(s.chan c).isr := by
  rw [(s.toggleStatus_spec c).1, ChannelState.toggled_isr]

theorem State.toggleStatus_posted (s : State) (c : Channel) :
    ((s.toggleStatus c).chan c).posted = ((s.chan c).posted || !(s.chan c).isr) := by
  rw [(s.toggleStatus_spec c).1, ChannelState.toggled_posted]

theorem State.acknowledge_isr (s : State) (c : Channel) : ((s.acknowledge c).chan c).isr = false := by
  rw [(s.acknowledge_spec c).1, ChannelState.acknowledged_isr]

theorem State.acknowledge_posted (s : State) (c : Channel) :
    ((s.acknowledge c).chan c).posted = ((s.chan c).posted && !(s.chan c).isr) := by
  rw [(s.acknowledge_spec c).1, ChannelState.acknowledged_posted]

/-- A toggle from CLEAR logs one `raise` on its target (41_interrupt_registers.md R111). -/
theorem State.callsOn_toggleStatus_of_clear {s : State} {c : Channel} (h : (s.chan c).isr = false) :
    callsOn (s.toggleStatus c).events (targetOf c) = callsOn s.events (targetOf c) ++ [.raise] := by
  obtain ⟨-, -, hcalls, -⟩ := s.toggleStatus_spec c
  rw [hcalls, if_pos rfl, ChannelState.toggleCalls_of_clear h]

/-- A toggle from SET makes no call (41_interrupt_registers.md R111). -/
theorem State.callsOn_toggleStatus_of_set {s : State} {c : Channel} (h : (s.chan c).isr = true) :
    callsOn (s.toggleStatus c).events (targetOf c) = callsOn s.events (targetOf c) := by
  obtain ⟨-, -, hcalls, -⟩ := s.toggleStatus_spec c
  rw [hcalls, if_pos rfl, ChannelState.toggleCalls_of_set h, List.append_nil]

/-- An acknowledge from SET logs one `lower` on its target (42_channel_registers.md R131). -/
theorem State.callsOn_acknowledge_of_set {s : State} {c : Channel} (h : (s.chan c).isr = true) :
    callsOn (s.acknowledge c).events (targetOf c) = callsOn s.events (targetOf c) ++ [.lower] := by
  obtain ⟨-, -, hcalls, -⟩ := s.acknowledge_spec c
  rw [hcalls, if_pos rfl, ChannelState.acknowledgeCalls, if_pos h]

/-! ### What an access does to one channel's status (R165) -/

/-- An access that is neither an IPISR write nor a data read makes no call and changes no status bit and no flag. -/
theorem exec_quiet {i : Instr} {s t : State} (hwrite : ∀ be v, i ≠ .wrIpisr be v) (hread : ∀ c be, i ≠ dataRead c be)
    (h : exec i s = .next t) :
    t.events = s.events ∧
      ∀ c, (t.chan c).isr = (s.chan c).isr ∧ (t.chan c).posted = (s.chan c).posted := by
  cases i with
  | wrIpisr be v => exact absurd rfl (hwrite be v)
  | rdGpioData be => exact absurd rfl (hread .ch1 be)
  | rdGpio2Data be => exact absurd rfl (hread .ch2 be)
  | rdGpioTri be | rdGpio2Tri be | rdGier be | rdIpisr be | rdIpier be =>
    cases h
    simp [State.finishRead]
  | wrGpioData be v | wrGpio2Data be v =>
    cases h
    simp [State.writeData]
  | wrGpioTri be v | wrGpio2Tri be v =>
    cases h
    simp [State.writeTri]
  | wrGier be v =>
    cases (exec_wrGier be v s).symm.trans h
    simp
  | wrIpier be v =>
    cases (exec_wrIpier be v s).symm.trans h
    simp

/-- An IPISR write leaves of each channel's status what that channel's selector bit does to it. -/
theorem exec_wrIpisr_sameStatus {be : ByteEnable} {v : Word} {s t : State} (h : exec (.wrIpisr be v) s = .next t)
    (c : Channel) : (s.toggleIf c (s.ipisrSelector be v c)).SameStatus t c := by
  cases (exec_wrIpisr be v s).symm.trans h
  apply State.SameStatus.of_chan_eq
  · cases c <;> simp [State.chan_toggleIf, -State.chan_ch1, -State.chan_ch2]
  · cases c <;> simp [State.chan_toggleIf, State.callsOn_toggleIf, -State.chan_ch1, -State.chan_ch2]

/-- A data-register read leaves of every channel's status what acknowledging its own channel does. -/
theorem exec_dataRead_sameStatus {d : Channel} {be : ByteEnable} {s t : State} (h : exec (dataRead d be) s = .next t)
    (c : Channel) : (s.acknowledge d).SameStatus t c := by
  obtain ⟨r, hr⟩ := exec_dataRead d be s
  cases hr.symm.trans h
  exact State.sameStatus_complete _ r c

/-- An acknowledge of one channel leaves the other's status (42_channel_registers.md R145). -/
theorem State.sameStatus_acknowledge_ne {c d : Channel} (h : c ≠ d) (s : State) : s.SameStatus (s.acknowledge d) c := by
  obtain ⟨-, hother, hcalls, -⟩ := s.acknowledge_spec d
  exact .of_chan_eq (hother c h) (by rw [hcalls c, if_neg (Ne.symm h), List.append_nil])

/-- The events of R165 at channel c, as an access takes `s` to `t`. -/
inductive StatusMove (s : State) (c : Channel) (t : State) : Instr → Prop where
  /-- An IPISR write whose selector has the channel's bit. -/
  | toggle {be : ByteEnable} {v : Word} (hsel : s.ipisrSelector be v c = true)
      (hst : (s.toggleStatus c).SameStatus t c) : StatusMove s c t (.wrIpisr be v)
  /-- A read of the channel's data register. -/
  | acknowledge (be : ByteEnable) (hst : (s.acknowledge c).SameStatus t c) : StatusMove s c t (dataRead c be)
  /-- Any other access, an IPISR write that does not select the channel among them. -/
  | keep {i : Instr} (hsel : ∀ be v, i = .wrIpisr be v → s.ipisrSelector be v c = false)
      (hread : ∀ be, i ≠ dataRead c be) (hst : s.SameStatus t c) : StatusMove s c t i

theorem dataRead_ne_wrIpisr (c : Channel) (be be' : ByteEnable) (v : Word) : dataRead c be ≠ .wrIpisr be' v := by
  cases c <;> exact nofun

theorem channel_eq_of_dataRead_eq {c d : Channel} {be be' : ByteEnable} (h : dataRead d be = dataRead c be') :
    d = c := by
  cases c <;> cases d <;> cases h <;> rfl

/-- Every access is one of the events at every channel. -/
theorem exec_statusMove {i : Instr} {s t : State} (h : exec i s = .next t) (c : Channel) : StatusMove s c t i := by
  by_cases hwrite : ∃ be v, i = .wrIpisr be v
  · obtain ⟨be, v, rfl⟩ := hwrite
    have hst := exec_wrIpisr_sameStatus h c
    cases hsel : s.ipisrSelector be v c with
    | true => exact .toggle hsel (by rwa [hsel] at hst)
    | false =>
      rw [hsel] at hst
      exact .keep (fun _ _ e => by cases e; exact hsel) (fun be' e => dataRead_ne_wrIpisr c be' be v e.symm) hst
  by_cases hread : ∃ d be, i = dataRead d be
  · obtain ⟨d, be, rfl⟩ := hread
    have hst := exec_dataRead_sameStatus h c
    by_cases hd : d = c
    · subst hd
      exact .acknowledge be hst
    · exact .keep (fun _ _ e => absurd e (dataRead_ne_wrIpisr d be _ _)) (fun _ e => hd (channel_eq_of_dataRead_eq e))
        ((State.sameStatus_acknowledge_ne (Ne.symm hd) s).trans hst)
  · obtain ⟨hevents, hchan⟩ := exec_quiet (fun be v e => hwrite ⟨be, v, e⟩) (fun d be e => hread ⟨d, be, e⟩) h
    exact .keep (fun be v e => absurd ⟨be, v, e⟩ hwrite) (fun be e => hread ⟨c, be, e⟩)
      ⟨(hchan c).1, (hchan c).2, by rw [hevents]⟩

/-- A selector has a channel's bit by lane 0 and the written bit, or under `MERGED` by the stored status bit. -/
theorem State.ipisrSelector_cases {s : State} {be : ByteEnable} {v : Word} {c : Channel}
    (h : s.ipisrSelector be v c = true) :
    (be.getLsbD 0 = true ∧ v.getLsbD (bitOf c) = true) ∨
      (be.getLsbD 0 = false ∧ s.params.ctrlWriteMode = .merged ∧ (s.chan c).isr = true) := by
  cases hlane : be.getLsbD 0 with
  | true =>
    rw [State.ipisrSelector, hlane] at h
    exact .inl ⟨rfl, h⟩
  | false =>
    rw [State.ipisrSelector, hlane] at h
    exact .inr ⟨rfl, by simpa using h⟩

theorem State.ipisrSelector_of_lane0 {be : ByteEnable} (h : be.getLsbD 0 = true) (s : State) (v : Word) (c : Channel) :
    s.ipisrSelector be v c = v.getLsbD (bitOf c) := by
  rw [State.ipisrSelector, if_pos h]

/-- CLEAR to SET: only a toggle by the written bit does it, since the stored bit is 0. -/
theorem StatusMove.of_clear_to_set {s t : State} {c : Channel} {i : Instr} (h : StatusMove s c t i)
    (hclear : (s.chan c).isr = false) (hset : (t.chan c).isr = true) :
    (∃ be v, i = .wrIpisr be v ∧ be.getLsbD 0 = true ∧ v.getLsbD (bitOf c) = true) ∧
      (t.chan c).posted = true ∧ callsOn t.events (targetOf c) = callsOn s.events (targetOf c) ++ [.raise] := by
  cases h with
  | @toggle be v hsel hst =>
    obtain ⟨hlane, hbit⟩ | ⟨-, -, hstored⟩ := State.ipisrSelector_cases hsel
    · exact ⟨⟨be, v, rfl, hlane, hbit⟩, by simp [hst.posted, State.toggleStatus_posted, hclear],
        hst.calls.trans (State.callsOn_toggleStatus_of_clear hclear)⟩
    · exact absurd (hstored.symm.trans hclear) nofun
  | acknowledge be hst => exact absurd (hset.symm.trans (hst.isr.trans (s.acknowledge_isr c))) nofun
  | keep _ _ hst => exact absurd (hset.symm.trans (hst.isr.trans hclear)) nofun

/-- SET to CLEAR: a toggle, with flag and calls kept, or an acknowledge, with the flag cleared and one `lower`. -/
theorem StatusMove.of_set_to_clear {s t : State} {c : Channel} {i : Instr} (h : StatusMove s c t i)
    (hset : (s.chan c).isr = true) (hclear : (t.chan c).isr = false) :
    ((∃ be v, i = .wrIpisr be v ∧ ((be.getLsbD 0 = true ∧ v.getLsbD (bitOf c) = true) ∨
          (be.getLsbD 0 = false ∧ s.params.ctrlWriteMode = .merged))) ∧
        (t.chan c).posted = (s.chan c).posted ∧
        callsOn t.events (targetOf c) = callsOn s.events (targetOf c)) ∨
      ((∃ be, i = dataRead c be) ∧ (t.chan c).posted = false ∧
        callsOn t.events (targetOf c) = callsOn s.events (targetOf c) ++ [.lower]) := by
  cases h with
  | @toggle be v hsel hst =>
    exact .inl ⟨⟨be, v, rfl, (State.ipisrSelector_cases hsel).imp_right fun ⟨hlane, hmode, _⟩ => ⟨hlane, hmode⟩⟩,
      by simp [hst.posted, State.toggleStatus_posted, hset],
      hst.calls.trans (State.callsOn_toggleStatus_of_set hset)⟩
  | acknowledge be hst =>
    exact .inr ⟨⟨be, rfl⟩, by simp [hst.posted, State.acknowledge_posted, hset],
      hst.calls.trans (State.callsOn_acknowledge_of_set hset)⟩
  | keep _ _ hst => exact absurd (hclear.symm.trans (hst.isr.trans hset)) nofun

/-- Status bit unchanged: no toggle, and an acknowledge found nothing to acknowledge. -/
theorem StatusMove.sameStatus_of_isr_eq {s t : State} {c : Channel} {i : Instr} (h : StatusMove s c t i)
    (hisr : (t.chan c).isr = (s.chan c).isr) : s.SameStatus t c := by
  cases h with
  | toggle hsel hst =>
    have hflip : (!(s.chan c).isr) = (s.chan c).isr := (s.toggleStatus_isr c).symm.trans (hst.isr.symm.trans hisr)
    exact absurd hflip (Bool.not_ne_self _)
  | acknowledge be hst =>
    have hclear : (s.chan c).isr = false := hisr.symm.trans (hst.isr.trans (s.acknowledge_isr c))
    rwa [State.acknowledge_of_clear hclear] at hst
  | keep _ _ hst => exact hst

/-- An IPISR write moves the status bit as its selector bit says. -/
theorem exec_wrIpisr_isr {be : ByteEnable} {v : Word} {s t : State} (h : exec (.wrIpisr be v) s = .next t)
    (c : Channel) : (t.chan c).isr = ((s.chan c).isr ^^ s.ipisrSelector be v c) := by
  rw [(exec_wrIpisr_sameStatus h c).isr, State.toggleIf_eq, State.chan_setChan_self]

/-- Settles O33: every access is one of R165's events at the channel, and a pin update writes a data register alone. -/
theorem statusBitStateMachine : Obligations.StatusBitStateMachine := by
  refine ⟨fun i s t c hexec => ?_, fun s t c d p rest hin hstep => ?_⟩
  · have hmove := exec_statusMove hexec c
    refine ⟨hmove.of_clear_to_set, hmove.of_set_to_clear, fun hisr => ?_, ?_, ?_, ?_⟩
    · obtain ⟨-, hposted, hcalls⟩ := hmove.sameStatus_of_isr_eq hisr
      exact ⟨hposted, hcalls⟩
    · rintro ⟨be, v, rfl, hlane, hbit⟩
      rw [exec_wrIpisr_isr hexec, State.ipisrSelector_of_lane0 hlane, hbit, Bool.xor_true]
    · rintro ⟨be, v, rfl, hlane, hmode⟩
      rw [exec_wrIpisr_isr hexec, State.ipisrSelector_merged v c hmode hlane, Bool.xor_self]
    · rintro ⟨be, rfl⟩
      rw [(exec_dataRead_sameStatus hexec c).isr, State.acknowledge_isr]
  · obtain ⟨-, rfl⟩ := pinStep_next ((step_of_input hin).symm.trans hstep)
    obtain ⟨hisr, hposted, -⟩ := State.sameStatus_pinUpdate { s with input := rest } d p c
    exact ⟨hisr, hposted, State.setData_events _ d _⟩

/-! ### The phases (R166) -/

/-- A channel's phase is read from its status. -/
theorem State.SameStatus.phase_eq {s t : State} {c : Channel} (h : s.SameStatus t c) : t.phase c = s.phase c := by
  rw [State.phase, h.isr, h.posted, State.line_of_callsOn_eq h.calls, State.phase]

/-- The phase after a 1 written to the status bit. -/
def Phase.toggled : Phase → Phase
  | .idle => .pending
  | .pending => .stale
  | .stale => .pending

/-- The phase after a read of the data register. -/
def Phase.acknowledged : Phase → Phase
  | .idle => .idle
  | .pending => .idle
  | .stale => .stale

theorem phase_eq_pending_iff {s : State} {c : Channel} :
    s.phase c = some .pending ↔ (s.chan c).isr = true ∧ (s.chan c).posted = true ∧ s.line c = true :=
  phaseOf_eq_pending _ _ _

theorem phase_eq_stale_iff {s : State} {c : Channel} :
    s.phase c = some .stale ↔ (s.chan c).isr = false ∧ (s.chan c).posted = true ∧ s.line c = true :=
  phaseOf_eq_stale _ _ _

/-- A toggle moves status bit, posted flag and line of each of the three phases to those of another. -/
theorem phaseOf_toggled {isr posted line : Bool} {p : Phase} (h : phaseOf isr posted line = some p) :
    phaseOf (!isr) (posted || !isr) (line || !isr) = some p.toggled := by
  cases isr <;> cases posted <;> cases line <;> cases h <;> rfl

/-- An acknowledge moves them to those of a phase again: IDLE from PENDING, else the same. -/
theorem phaseOf_acknowledged {isr posted line : Bool} {p : Phase} (h : phaseOf isr posted line = some p) :
    phaseOf false (posted && !isr) (line && !isr) = some p.acknowledged := by
  cases isr <;> cases posted <;> cases line <;> cases h <;> rfl

theorem State.phase_toggleStatus {s : State} {c : Channel} {p : Phase} (h : s.phase c = some p) :
    (s.toggleStatus c).phase c = some p.toggled := by
  rw [State.phase, State.toggleStatus_isr, State.toggleStatus_posted, State.toggleStatus_line]
  exact phaseOf_toggled h

theorem State.phase_acknowledge {s : State} {c : Channel} {p : Phase} (h : s.phase c = some p) :
    (s.acknowledge c).phase c = some p.acknowledged := by
  rw [State.phase, State.acknowledge_isr, State.acknowledge_posted, State.acknowledge_line]
  exact phaseOf_acknowledged h

/-- An IPISR write with lane 0 and the channel's selector bit toggles the channel. -/
theorem exec_wrIpisr_selecting {be : ByteEnable} {v : Word} {c : Channel} (hlane : be.getLsbD 0 = true)
    (hbit : v.getLsbD (bitOf c) = true) (s : State) :
    ∃ t, exec (.wrIpisr be v) s = .next t ∧ (s.toggleStatus c).SameStatus t c := by
  have hst := exec_wrIpisr_sameStatus (exec_wrIpisr be v s) c
  rw [State.ipisrSelector_of_lane0 hlane, hbit] at hst
  exact ⟨_, exec_wrIpisr be v s, hst⟩

/-- Settles O34: the write is a toggle, the read an acknowledge, and each moves the phase. -/
theorem channelPhaseTransitions : Obligations.ChannelPhaseTransitions := by
  intro s c be be' v hlane hbit
  obtain ⟨t, ht, hwrite⟩ := exec_wrIpisr_selecting hlane hbit s
  obtain ⟨r, hu⟩ := exec_dataRead c be' s
  have hread := exec_dataRead_sameStatus hu c
  have hphases {p : Phase} (h : s.phase c = some p) :
      t.phase c = some p.toggled ∧ ((s.acknowledge c).complete r).phase c = some p.acknowledged :=
    ⟨hwrite.phase_eq.trans (State.phase_toggleStatus h), hread.phase_eq.trans (State.phase_acknowledge h)⟩
  exact ⟨t, _, ht, hu, hphases, hphases, hphases⟩

/-- Every step leaves a channel's status, or is a host access that decodes and makes one of the events. -/
theorem step_statusMove {s t : State} (h : step s = .next t) (c : Channel) :
    s.SameStatus t c ∨ ∃ x rest w i, s.input = x :: rest ∧ accessWordOf s.params.busByteOrder x = some w ∧
      decode w = .ok i ∧ StatusMove { s with input := rest } c t i := by
  have htaken (rest : List Input) : s.SameStatus { s with input := rest } c := ⟨rfl, rfl, rfl⟩
  obtain ⟨-, ht⟩ | ⟨x, rest, w, hin, hw, ht⟩ | ⟨d, p, rest, -, ht⟩ := step_cases s
  · obtain rfl : s = t := by simpa [ht] using h
    exact .inl ⟨rfl, rfl, rfl⟩
  · obtain ⟨i, hi, he⟩ | ⟨-, he⟩ | ⟨-, -, he⟩ | ⟨-, -, he⟩ := accessStep_cases (ht.symm.trans h)
    · exact .inr ⟨x, rest, w, i, hin, hw, hi, exec_statusMove he.symm c⟩
    all_goals cases he
    · exact .inl ((htaken rest).trans (State.sameStatus_refuse _ _ c))
    · exact .inl ((htaken rest).trans (State.sameStatus_refuse _ _ c))
    · exact .inl ((htaken rest).trans (State.sameStatus_complete _ _ c))
  · obtain ⟨-, rfl⟩ := pinStep_next (ht.symm.trans h)
    exact .inl ((htaken rest).trans (State.sameStatus_pinUpdate _ d p c))

/-- Settles O35: a STALE channel's status bit is CLEAR, so only a toggle moves the channel, and that to PENDING. -/
theorem staleNeverGoesStraightToIdle : Obligations.StaleNeverGoesStraightToIdle := by
  intro s t c hstale hstep
  obtain hst | ⟨x, rest, w, i, hin, hw, hdecode, hmove⟩ := step_statusMove hstep c
  · exact .inl (hst.phase_eq.trans hstale)
  have htaken : { s with input := rest }.phase c = some .stale := hstale
  obtain ⟨hclear, -⟩ := phase_eq_stale_iff.mp htaken
  cases hmove with
  | @toggle be v hsel hst =>
    obtain ⟨hlane, hbit⟩ | ⟨-, -, hset⟩ := State.ipisrSelector_cases hsel
    · exact .inr ⟨hst.phase_eq.trans (State.phase_toggleStatus htaken),
        x, rest, w, be, v, hin, hw, hdecode, hlane, hbit⟩
    · exact absurd (hset.symm.trans hclear) nofun
  | acknowledge be hst => exact .inl (hst.phase_eq.trans (State.phase_acknowledge htaken))
  | keep _ _ hst => exact .inl (hst.phase_eq.trans htaken)

/-- Settles O36: from STALE the toggle raises, and leads to PENDING, where the line is up. -/
theorem secondRaiseIsLoggedAndLineStaysUp : Obligations.SecondRaiseIsLoggedAndLineStaysUp := by
  intro s c be v hstale hlane hbit
  obtain ⟨hclear, -, hline⟩ := phase_eq_stale_iff.mp hstale
  obtain ⟨t, ht, hst⟩ := exec_wrIpisr_selecting hlane hbit s
  obtain ⟨-, -, hup⟩ := phase_eq_pending_iff.mp (hst.phase_eq.trans (State.phase_toggleStatus hstale))
  exact ⟨hline, t, ht, hup, hst.calls.trans (State.callsOn_toggleStatus_of_clear hclear)⟩

/-! ### The calls of one access (R169) -/

/-- A bit written to a status bit logs one `raise` from CLEAR when it is 1, and nothing else. -/
theorem State.toggleIf_events (s : State) (c : Channel) (b : Bool) :
    (s.toggleIf c b).events =
      s.events ++ if b && !(s.chan c).isr then [(⟨targetOf c, .raise⟩ : Event)] else [] := by
  rw [State.toggleIf_eq, State.setChan_events]

/-- A read of a data register logs one `lower` from SET, and nothing else. -/
theorem State.acknowledge_events (s : State) (c : Channel) :
    (s.acknowledge c).events = s.events ++ if (s.chan c).isr then [(⟨targetOf c, .lower⟩ : Event)] else [] := by
  rw [State.acknowledge_eq, State.setChan_events]

theorem optionalEvent_mem (b : Bool) (e : Event) : (if b then [e] else []) ∈ [[], [e]] := by
  cases b <;> simp

theorem optionalEvents_mem (b b' : Bool) (e e' : Event) :
    ((if b then [e] else []) ++ if b' then [e'] else []) ∈ [[], [e], [e'], [e, e']] := by
  cases b <;> cases b' <;> simp

/-- Settles O37: an IPISR write is two toggles, channel 1's first; a data read one acknowledge; the rest is quiet. -/
theorem signalCallsOfOneAccess : Obligations.SignalCallsOfOneAccess := by
  intro i s t hexec
  by_cases hwrite : ∃ be v, i = .wrIpisr be v
  · obtain ⟨be, v, rfl⟩ := hwrite
    cases (exec_wrIpisr be v s).symm.trans hexec
    rw [State.complete_events, State.toggleIf_events, State.toggleIf_events, List.append_assoc]
    exact ⟨_, rfl, optionalEvents_mem _ _ _ _⟩
  by_cases hread : ∃ c be, i = dataRead c be
  · obtain ⟨c, be, rfl⟩ := hread
    obtain ⟨r, hr⟩ := exec_dataRead c be s
    cases hr.symm.trans hexec
    cases c with
    | ch1 => exact ⟨_, State.acknowledge_events s .ch1, optionalEvent_mem _ _⟩
    | ch2 => exact ⟨_, State.acknowledge_events s .ch2, optionalEvent_mem _ _⟩
  · obtain ⟨hevents, -⟩ := exec_quiet (fun be v e => hwrite ⟨be, v, e⟩) (fun c be e => hread ⟨c, be, e⟩) hexec
    refine ⟨[], by rw [hevents, List.append_nil], ?_⟩
    split
    · exact absurd ⟨_, _, rfl⟩ hwrite
    · exact absurd ⟨.ch1, _, rfl⟩ hread
    · exact absurd ⟨.ch2, _, rfl⟩ hread
    · rfl

end Sys2Proof.Machine
end

section
/-! SUPPORT. Proofs of the reset and hazards family (70_reset_and_hazards.md): what reset leaves, the enable bits that
gate nothing, the one way an output bit changes, and IPISR written back. -/

namespace Sys2Proof.Machine

open Sys2Proof

/-! ### Reset (R190, R191) -/

/-- After reset no call has been made, so every line is low and every channel IDLE (60_exceptions.md R166). -/
theorem resetWith_status (p : Params) (c : Channel) :
    ((State.resetWith p).chan c).posted = false ∧ (State.resetWith p).line c = false ∧
      (State.resetWith p).phase c = some .idle := by
  have hline : (State.resetWith p).line c = false := level_of_no_event nofun
  rw [State.phase, phaseOf_eq_idle]
  cases c <;> exact ⟨rfl, hline, rfl, rfl, hline⟩

/-- The value a register reads after reset: a parameter's for the channel registers, 0 for the interrupt registers
(R190). -/
def resetValue (p : Params) (r : Reg) : Word :=
  match r with
  | .gpioData => p.resetData1
  | .gpioTri => p.resetTri1
  | .gpio2Data => p.resetData2
  | .gpio2Tri => p.resetTri2
  | .gier | .ipier | .ipisr => 0

theorem topBitValue_false : topBitValue false = 0 := by decide

theorem pairValue_false_false : pairValue false false = 0 := by decide

theorem resetWith_reg (p : Params) (r : Reg) : (State.resetWith p).reg r = resetValue p r := by
  cases r with
  | gpioData | gpioTri | gpio2Data | gpio2Tri => rfl
  | gier => exact topBitValue_false
  | ipier | ipisr => exact pairValue_false_false

/-- Settles O52: the registers by `resetWith_reg`, the calls and phases by `resetWith_status`. -/
theorem resetStateValues : Obligations.ResetStateValues := by
  refine ⟨fun p => ?_, fun r => ?_⟩
  · have hreg := resetWith_reg p
    exact ⟨hreg .gpioData, hreg .gpioTri, hreg .gpio2Data, hreg .gpio2Tri, hreg .gier, hreg .ipier, hreg .ipisr,
      rfl, rfl, rfl, resetWith_status p⟩
  · rw [State.reset, resetWith_reg]
    cases r <;> rfl

/-! ### The enable bits gate nothing (R199) -/

theorem State.acknowledge_withEnables (s : State) (g e1 e2 : Bool) (c : Channel) :
    (s.withEnables g e1 e2).acknowledge c = (s.acknowledge c).withEnables g e1 e2 := by
  rw [State.acknowledge_eq, State.acknowledge_eq]
  cases c <;> rfl

theorem State.toggleIf_withEnables (s : State) (g e1 e2 : Bool) (c : Channel) (b : Bool) :
    (s.withEnables g e1 e2).toggleIf c b = (s.toggleIf c b).withEnables g e1 e2 := by
  rw [State.toggleIf_eq, State.toggleIf_eq]
  cases c <;> rfl

theorem State.ipisrSelector_withEnables (s : State) (g e1 e2 : Bool) (be : ByteEnable) (v : Word) (c : Channel) :
    (s.withEnables g e1 e2).ipisrSelector be v c = s.ipisrSelector be v c := by
  cases c <;> rfl

/-- Settles O42, by the access: the enable bits pass through every operation, a GIER or IPIER write assigns them, and
the two reads that see them are excluded. -/
theorem enablesGateNothing : Obligations.EnablesGateNothing := by
  intro i s t hi h g e1 e2
  cases i with
  | rdGier be => exact absurd rfl (hi be).1
  | rdIpier be => exact absurd rfl (hi be).2
  | rdGpioTri be | rdGpio2Tri be | rdIpisr be
  | wrGpioData be v | wrGpio2Data be v | wrGpioTri be v | wrGpio2Tri be v =>
    cases h
    exact ⟨g, e1, e2, rfl⟩
  | rdGpioData be | rdGpio2Data be =>
    cases h
    refine ⟨g, e1, e2, ?_⟩
    simp only [exec_rdGpioData, exec_rdGpio2Data, State.acknowledge_withEnables]
    rfl
  | wrGier be v =>
    cases (exec_wrGier be v s).symm.trans h
    exact ⟨_, e1, e2, exec_wrGier be v _⟩
  | wrIpier be v =>
    cases (exec_wrIpier be v s).symm.trans h
    exact ⟨g, _, _, exec_wrIpier be v _⟩
  | wrIpisr be v =>
    cases (exec_wrIpisr be v s).symm.trans h
    refine ⟨g, e1, e2, ?_⟩
    simp only [exec_wrIpisr, State.ipisrSelector_withEnables, State.toggleIf_withEnables]
    rfl

/-! ### Output bits (R201) -/

/-- An access leaves a channel's data register alone unless it is that register's write. -/
theorem exec_data_eq_or_dataWriteOf {i : Instr} {s t : State} (h : exec i s = .next t) (c : Channel) :
    (t.chan c).data = (s.chan c).data ∨ ∃ be v, i = dataWriteOf c be v := by
  cases i with
  | wrGpioData be v =>
    cases h
    cases c
    exacts [.inr ⟨be, v, rfl⟩, .inl rfl]
  | wrGpio2Data be v =>
    cases h
    cases c
    exacts [.inl rfl, .inr ⟨be, v, rfl⟩]
  | rdGpioData be | rdGpio2Data be | rdGpioTri be | rdGpio2Tri be | rdGier be | rdIpisr be | rdIpier be
  | wrGpioTri be v | wrGpio2Tri be v =>
    cases h
    left
    simp only [State.finishRead, State.writeTri, State.complete_chan, State.chan_acknowledge_data,
      State.chan_setTri_data]
  | wrGier be v =>
    cases (exec_wrGier be v s).symm.trans h
    left
    rw [State.complete_chan, State.setGie_chan]
  | wrIpier be v =>
    cases (exec_wrIpier be v s).symm.trans h
    left
    rw [State.complete_chan, State.chan_setIer_data]
  | wrIpisr be v =>
    cases (exec_wrIpisr be v s).symm.trans h
    left
    rw [State.complete_chan, State.chan_toggleIf_data, State.chan_toggleIf_data]

/-- An output bit after a write of its data register: the written bit where its lane is selected, else the old one
(42_channel_registers.md R134). -/
theorem exec_dataWriteOf_outputBit {c : Channel} {be : ByteEnable} {v : Word} {s t : State} {k : Nat}
    (h : exec (dataWriteOf c be v) s = .next t) (hk : k < 32) (htri : (s.chan c).tri.getLsbD k = false) :
    (t.chan c).data.getLsbD k = if be.getLsbD (k / 8) then v.getLsbD k else (s.chan c).data.getLsbD k := by
  obtain ⟨u, hu, hbit⟩ := dataWriteBitByBit c be v s
  cases hu.symm.trans h
  rw [hbit k hk, htri]
  cases be.getLsbD (k / 8) <;> rfl

/-- A pin update changes no output bit of either channel (42_channel_registers.md R146). -/
theorem State.pinUpdate_outputBit {s : State} {d : Channel} {k : Nat} (htri : (s.chan d).tri.getLsbD k = false)
    (c : Channel) (p : Word) : ((s.pinUpdate c p).chan d).data.getLsbD k = (s.chan d).data.getLsbD k := by
  rw [State.pinUpdate]
  by_cases hdc : d = c
  · subst hdc
    rw [State.chan_setData_self, pinWrite_getLsbD, htri]
    rfl
  · rw [State.chan_setData_ne s hdc]

/-- A host access that changes an output bit decodes to the write of its data register, with the bit's lane selected and
the new bit written. -/
theorem accessStep_outputBit {w : AccessWord} {s t : State} {c : Channel} {k : Nat} (h : accessStep w s = .next t)
    (htri : (s.chan c).tri.getLsbD k = false) (hne : (t.chan c).data.getLsbD k ≠ (s.chan c).data.getLsbD k) :
    ∃ be v, decode w = .ok (dataWriteOf c be v) ∧ be.getLsbD (k / 8) = true ∧
      (t.chan c).data.getLsbD k = v.getLsbD k := by
  have hk : k < 32 := by
    by_contra hge
    exact hne ((BitVec.getLsbD_of_ge _ _ (by omega)).trans (BitVec.getLsbD_of_ge _ _ (by omega)).symm)
  obtain ⟨i, hdec, ht⟩ | ⟨-, ht⟩ | ⟨-, -, ht⟩ | ⟨-, -, ht⟩ := accessStep_cases h
  case inl =>
    obtain hdata | ⟨be, v, rfl⟩ := exec_data_eq_or_dataWriteOf ht.symm c
    · exact absurd (by rw [hdata]) hne
    · have hbit := exec_dataWriteOf_outputBit ht.symm hk htri
      cases hlane : be.getLsbD (k / 8) with
      | false => exact absurd (by simpa [hlane] using hbit) hne
      | true => exact ⟨be, v, hdec, hlane, by simpa [hlane] using hbit⟩
  all_goals
    cases ht
    exact absurd (by simp only [State.refuse_chan, State.complete_chan]) hne

/-- Settles O47, by the kinds of step: an idle step and a pin update leave output bits alone. -/
theorem outputBitsChangeOnlyByDataWrites : Obligations.OutputBitsChangeOnlyByDataWrites := by
  intro s t c k hstep htri hne
  obtain ⟨-, ht⟩ | ⟨x, rest, w, hin, hw, ht⟩ | ⟨d, p, rest, -, ht⟩ := step_cases s
  · cases ht.symm.trans hstep
    exact absurd rfl hne
  · obtain ⟨be, v, hdec, hlane, hbit⟩ :=
      accessStep_outputBit (s := { s with input := rest }) (ht.symm.trans hstep) htri hne
    exact ⟨x, rest, w, be, v, hin, hw, hdec, hlane, hbit⟩
  · obtain ⟨-, rfl⟩ := pinStep_next (ht.symm.trans hstep)
    exact absurd (State.pinUpdate_outputBit (s := { s with input := rest }) htri d p) hne

/-! ### IPISR written back (R197, R198) -/

/-- A full-width read of IPISR hands back the two status bits in bits 0 and 1 (41_interrupt_registers.md R110). -/
theorem ipisr_fullRead_bits (s : State) :
    (s.reg .ipisr &&& bemask 0xF).getLsbD 0 = (s.chan .ch1).isr ∧
    (s.reg .ipisr &&& bemask 0xF).getLsbD 1 = (s.chan .ch2).isr := by
  have hall : bemask 0xF = BitVec.allOnes 32 := by decide
  rw [hall, BitVec.and_allOnes]
  exact pairValue_bits s.ch1.isr s.ch2.isr

/-- A full-width IPISR write of the two status bits clears both, with no call and the flags kept (R198). -/
theorem exec_wrIpisr_stored {v : Word} {s : State} (h0 : v.getLsbD 0 = (s.chan .ch1).isr)
    (h1 : v.getLsbD 1 = (s.chan .ch2).isr) :
    exec (.wrIpisr 0xF v) s =
      .next (((s.setChan .ch1 { s.ch1 with isr := false }).setChan .ch2 { s.ch2 with isr := false }).complete
        .written) := by
  rw [exec_wrIpisr_of_lane0 v s rfl, h0, h1, State.toggleIf_stored]
  exact congrArg (fun u : State => Host.Outcome.next (u.complete .written)) (State.toggleIf_stored _ .ch2)

/-- Settles O50: the value read selects exactly the SET status bits, and a toggle from SET makes no call. -/
theorem writingBackIpisrClearsSilently : Obligations.WritingBackIpisrClearsSilently := by
  intro s
  obtain ⟨h0, h1⟩ := ipisr_fullRead_bits s
  refine ⟨_, _, _, exec_rdIpisr 0xF s, rfl, exec_wrIpisr_stored (s := s.finishRead .ipisr 0xF) h0 h1,
    pairValue_false_false, rfl, fun c => ?_⟩
  cases c <;> rfl

end Sys2Proof.Machine
end
